-- ==== Sys2Proof/Word.lean ====
section
/-! DEFINITION. The words of CORE (30_encoding.md section 2): one abbreviation per data format, the three channels,
and the record of one thing per channel. Plain types only; every computation over them stands under `Machine/`. -/

namespace Sys2Proof

/-- A phase, sample phase or base phase: u16, one electrical cycle mapped onto 0..65535 (R4, R55). -/
abbrev Phase := BitVec 16

/-- A phase offset: u16 on the same scale (R56). -/
abbrev PhaseOffset := BitVec 16

/-- A sine sample: s16, read as an integer by `BitVec.toInt` (R57). -/
abbrev Sample := BitVec 16

/-- A re-centred sample: u16 (R58). -/
abbrev Centered := BitVec 16

/-- A duty value: u10 (R59). -/
abbrev Duty := BitVec 10

/-- The coarse field of a duty value: u8 (R12, R59). -/
abbrev Coarse := BitVec 8

/-- The fine field of a duty value: u2 (R12, R59). -/
abbrev Fine := BitVec 2

/-- A table index: u6, so strictly below 64 by its type (R34, R81). -/
abbrev TableIndex := BitVec 6

/-- The command word on `cmd[2:0]` (R50). -/
abbrev CmdWord := BitVec 3

/-- The table space: 64 words of 16 signed bits, word-indexed (R7, R30, R38). -/
abbrev SineTable := Vector Sample 64

/-- The three output channels, N_CHANNELS = 3, numbered 0, 1, 2 (R6). -/
inductive Channel where
  | ch0
  | ch1
  | ch2
  deriving DecidableEq, Repr

/-- One thing per channel: the shape of DUTY[0..2] and of VALID[0..2] (R11, R13). -/
structure PerChannel (α : Type) where
  ch0 : α
  ch1 : α
  ch2 : α
  deriving DecidableEq, Repr

end Sys2Proof
end

