-- ==== Sys2Proof/Syntax.lean ====
section
/-! DEFINITION. What can be presented to CORE: the eight commands of the opcode map (R51, opcode_table.json), the pair
of input ports sampled at a step (R19, R20), and the lines of the spec's program text (R60, R61). -/

namespace Sys2Proof

/-- The commands, one constructor per row of spec/opcode_table.json. No row leaves an operand open: the three words of
`EVL c` are three rows. -/
inductive Instr where
  /-- 0b000, R72 -/
  | nop
  /-- 0b001, R71 -/
  | adv
  /-- 0b010, R100 -/
  | tick
  /-- 0b011, reserved, R53 -/
  | rsv3
  /-- 0b100, R96 for channel 0 -/
  | evl0
  /-- 0b101, R96 for channel 1 -/
  | evl1
  /-- 0b110, R96 for channel 2 -/
  | evl2
  /-- 0b111, reserved, R53 -/
  | rsv7
  deriving DecidableEq, Repr

/-- What the sequencer drives at one rising edge of `clk`: the ports `rst` and `cmd` (R19, R20). -/
structure Input where
  rst : Bool
  cmd : CmdWord
  deriving DecidableEq, Repr

/-- A line of a program in the spec's mnemonics (R60) with its two repetitions (R61). `EVL c` carries its operand as
the two bits `cmd[1:0]`, of which only 0, 1, 2 are legal (R52): `Line.wellFormed` is that check. -/
inductive Line where
  | rst
  | nop
  | adv
  | tick
  | evl (c : BitVec 2)
  | rsv3
  | rsv7
  | tickTimes (n : Nat)
  | idleTimes (n : Nat)
  deriving DecidableEq, Repr

end Sys2Proof
end

