-- ==== Sys2Proof/WellFormed.lean ====
section
/-! DEFINITION. The checks on what is presented. A command has no operand left open, so every `Instr` is well formed
and no check on it exists; what can be ill formed is a line of program text (R52), and what a conforming sequencer must
not present is a reserved word (R53, R140) or a run that does not begin with a reset step (R131). The check on a
configuration (R9) is `Config.valid` in Machine/Parameters.lean. -/

namespace Sys2Proof

/-- `EVL c` takes c in 0, 1, 2; c = 3 is not an EVL (R52, R96 corner case iii). -/
def Line.wellFormed : Line → Bool
  | .evl c => c != 3#2
  | .rst => true
  | .nop => true
  | .adv => true
  | .tick => true
  | .rsv3 => true
  | .rsv7 => true
  | .tickTimes _ => true
  | .idleTimes _ => true

/-- The two reserved words are for the spec's future use: a conforming sequencer never presents them (R53, R140). -/
def Instr.conforming : Instr → Bool
  | .rsv3 => false
  | .rsv7 => false
  | .nop => true
  | .adv => true
  | .tick => true
  | .evl0 => true
  | .evl1 => true
  | .evl2 => true

/-- A run is given a meaning only if its first step is a reset step (R131). -/
def beginsWithReset : List Input → Bool
  | [] => false
  | i :: _ => i.rst

end Sys2Proof
end

