-- ==== Sys2Proof/Decode.lean ====
section
/-! DEFINITION. The command word: decoder, encoder, and the assembling of the spec's program text (30_encoding.md). -/

namespace Sys2Proof

/-- The opcode map (R50, R51), total over the eight words: `cmd[2]` is the class, `cmd[1:0]` the function or the
channel number. -/
def decodeCmd (w : CmdWord) : Instr :=
  if w.getLsbD 2 = false then
    match (w.extractLsb' 0 2).toNat with
    | 0 => .nop
    | 1 => .adv
    | 2 => .tick
    | _ => .rsv3
  else
    match (w.extractLsb' 0 2).toNat with
    | 0 => .evl0
    | 1 => .evl1
    | 2 => .evl2
    | _ => .rsv7

/-- Why a number is not a command. -/
inductive DecodeError where
  /-- A bit above `cmd[2]` is set: the command word has three bits (R50). -/
  | notACommandWord
  deriving DecidableEq, Repr

/-- The decoder on any number of bits, given as a number whose bit 0 is `cmd[0]`: it reads three bits and rejects a
number in which a higher bit is set. -/
def decodeBits (nbits w : Nat) : Except DecodeError Instr :=
  if w % 2 ^ nbits < 8 then .ok (decodeCmd (BitVec.ofNat 3 (w % 2 ^ nbits))) else .error .notACommandWord

/-- The decoder over the numbering of spec/opcode_table.json. -/
def decodeTableWord (nbits w : Nat) : Option Instr :=
  match decodeBits nbits w with
  | .ok i => some i
  | .error _ => none

/-- The word of each command (R51, R60). -/
def encode : Instr → CmdWord
  | .nop => 0b000#3
  | .adv => 0b001#3
  | .tick => 0b010#3
  | .rsv3 => 0b011#3
  | .evl0 => 0b100#3
  | .evl1 => 0b101#3
  | .evl2 => 0b110#3
  | .rsv7 => 0b111#3

/-- A command presented with `rst` = 0. -/
def Instr.toInput (i : Instr) : Input := ⟨false, encode i⟩

/-- A reset step. The word on `cmd` is ignored at it (R54); the spec's own programs show 000. -/
def Input.reset : Input := ⟨true, 0b000#3⟩

/-- The word of `EVL c` is 0b100 + c (R60); only c in 0, 1, 2 has one (R52). -/
def evlOfOperand (c : BitVec 2) : Option Instr :=
  match c.toNat with
  | 0 => some .evl0
  | 1 => some .evl1
  | 2 => some .evl2
  | _ => none

/-- The steps a line of program text stands for (R60, R61); none for an ill-formed line. -/
def Line.assemble : Line → Option (List Input)
  | .rst => some [Input.reset]
  | .nop => some [Instr.nop.toInput]
  | .adv => some [Instr.adv.toInput]
  | .tick => some [Instr.tick.toInput]
  | .evl c => (evlOfOperand c).map fun i => [i.toInput]
  | .rsv3 => some [Instr.rsv3.toInput]
  | .rsv7 => some [Instr.rsv7.toInput]
  | .tickTimes n => some (List.replicate n Instr.tick.toInput)
  | .idleTimes n => some (List.replicate n Instr.nop.toInput)

/-- The steps of a program, in order (R60). -/
def assemble : List Line → Option (List Input)
  | [] => some []
  | l :: ls =>
    match l.assemble, assemble ls with
    | some a, some b => some (a ++ b)
    | _, _ => none

end Sys2Proof
end

