-- ==== Sys2Proof/Config.lean ====
section
/-! DEFINITION. What is fixed before reset is released and never changes while the block runs (00_scope.md section 5,
R16, R139): the two OPEN parameters of decision D28. The offsets and the scale constants are fixed numbers of the
hardware and stand, with every function over a configuration, in Machine/Parameters.lean. The spec leaves no value of
CORE undefined while the machine goes on, so there is no free value here. -/

namespace Sys2Proof

/-- A configuration: DELTA (R5) and SINE_TABLE (R7, R31). Any 16-bit DELTA and any 64 words can be written down;
`Config.valid` says which configurations the hardware has (R9), and the machine refuses the others. -/
structure Config where
  delta : Phase
  table : SineTable
  deriving DecidableEq, Repr

/-- Why a pair of frequencies or a table makes no configuration (R9, R31, D7). -/
inductive ConfigError where
  /-- F_DESIRED or F_UPDATE is 0: both are positive integers (D7). -/
  | frequencyNotPositive
  /-- DELTA would be 0 (R9, U7). -/
  | deltaZero
  /-- DELTA would be 65536 or more (R9, U7). -/
  | deltaTooLarge
  /-- The table breaks R31 (b) or (d) (R9, U6). -/
  | tableNotAdmissible
  deriving DecidableEq, Repr

end Sys2Proof
end

