-- ==== Sys2Proof/Machine/Parameters.lean ====
section
/-! DEFINITION. The constants of the hardware under the spec's names (R4 to R8), the default sine table (R32), DELTA
from the two frequencies (R5), and which configurations are valid (R9, R31). -/

namespace Sys2Proof.Machine

/-- PHASE_BITS (R4). -/
def phaseBits : Nat := 16
/-- TABLE_SIZE (R7). -/
def tableSize : Nat := 64
/-- INDEX_BITS (R7). -/
def indexBits : Nat := 6
/-- INDEX_SHIFT = PHASE_BITS - INDEX_BITS (R7). -/
def indexShift : Nat := 10
/-- SAMPLE_MAX (R7). -/
def sampleMax : Int := 32767
/-- DUTY_BITS = R (R8). -/
def dutyBits : Nat := 10
/-- CENTER_BIAS (R8). -/
def centerBias : Int := 32767
/-- SCALE_SHIFT = 16 - DUTY_BITS (R8). -/
def scaleShift : Nat := 6
/-- FINE_BITS (R8). -/
def fineBits : Nat := 2
/-- COARSE_BITS = DUTY_BITS - FINE_BITS (R8). -/
def coarseBits : Nat := 8

/-- OFFSET[c] (R6): 0x0000, 0x5555, 0xAAAA. -/
def offset : Channel → PhaseOffset
  | .ch0 => 0x0000#16
  | .ch1 => 0x5555#16
  | .ch2 => 0xAAAA#16

/-- Rows 0..7 to 24..31 of the table of R32, in the spec's sixteen-bit words. -/
def sineWordsLow : List Sample :=
  [0x0000#16, 0x0C8C#16, 0x18F9#16, 0x2528#16, 0x30FB#16, 0x3C56#16, 0x471C#16, 0x5133#16] ++
  [0x5A82#16, 0x62F1#16, 0x6A6D#16, 0x70E2#16, 0x7641#16, 0x7A7C#16, 0x7D89#16, 0x7F61#16] ++
  [0x7FFF#16, 0x7F61#16, 0x7D89#16, 0x7A7C#16, 0x7641#16, 0x70E2#16, 0x6A6D#16, 0x62F1#16] ++
  [0x5A82#16, 0x5133#16, 0x471C#16, 0x3C56#16, 0x30FB#16, 0x2528#16, 0x18F9#16, 0x0C8C#16]

/-- Rows 32..39 to 56..63 of the table of R32. -/
def sineWordsHigh : List Sample :=
  [0x0000#16, 0xF374#16, 0xE707#16, 0xDAD8#16, 0xCF05#16, 0xC3AA#16, 0xB8E4#16, 0xAECD#16] ++
  [0xA57E#16, 0x9D0F#16, 0x9593#16, 0x8F1E#16, 0x89BF#16, 0x8584#16, 0x8277#16, 0x809F#16] ++
  [0x8001#16, 0x809F#16, 0x8277#16, 0x8584#16, 0x89BF#16, 0x8F1E#16, 0x9593#16, 0x9D0F#16] ++
  [0xA57E#16, 0xAECD#16, 0xB8E4#16, 0xC3AA#16, 0xCF05#16, 0xDAD8#16, 0xE707#16, 0xF374#16]

/-- SINE_TABLE, the default of R32. UNVERIFIED against the original repository, whose literal table is in no source
(D8, log entry 12). -/
def sineTable : SineTable := ⟨(sineWordsLow ++ sineWordsHigh).toArray, rfl⟩

/-- DELTA from the two frequencies, round half up (R5, D6). -/
def deltaOf (fDesired fUpdate : Nat) : Nat :=
  (2 * fDesired * 65536 + fUpdate) / (2 * fUpdate)

/-- A word in [-32767, 32767] (R31 b). -/
def sampleAdmissible (w : Sample) : Bool :=
  decide (-sampleMax ≤ w.toInt) && decide (w.toInt ≤ sampleMax)

/-- What R31 requires of a table taken as an argument: (b) and (d); (a) is its type. -/
def tableAdmissible (t : SineTable) : Bool :=
  t.toList.all sampleAdmissible && t[0] == 0#16 && t[32] == 0#16

end Sys2Proof.Machine

namespace Sys2Proof

/-- A valid configuration (R9): 0 < DELTA, an admissible table. DELTA < 65536 is its width, and the offsets are
constants. -/
def Config.valid (cfg : Config) : Bool :=
  cfg.delta != 0#16 && Machine.tableAdmissible cfg.table

/-- A configuration from F_DESIRED, F_UPDATE and a table, refused where R9 and D7 refuse it. -/
def Config.ofFrequencies (fDesired fUpdate : Nat) (table : SineTable) : Except ConfigError Config :=
  if fDesired = 0 ∨ fUpdate = 0 then .error .frequencyNotPositive
  else if Machine.deltaOf fDesired fUpdate = 0 then .error .deltaZero
  else if 65536 ≤ Machine.deltaOf fDesired fUpdate then .error .deltaTooLarge
  else if Machine.tableAdmissible table = false then .error .tableNotAdmissible
  else .ok ⟨BitVec.ofNat 16 (Machine.deltaOf fDesired fUpdate), table⟩

/-- The spec's worked configuration: F_DESIRED = 60, F_UPDATE = 20000, DELTA = 197 (R5, D28), the default table. -/
def Config.worked : Config := ⟨197#16, Machine.sineTable⟩

end Sys2Proof
end

