-- ==== Sys2Proof/Machine/State.lean ====
section
/-! DEFINITION. The state of CORE as plain data, the reasons a step stops, the state right after reset and the state
before the first reset. -/

namespace Sys2Proof.Machine

/-- The architectural registers, all of them (R3, R10, R11, R13, R15). A DUTY register that nothing has written holds
no value, and the spec asks for an absent value there (R14). -/
structure Regs where
  /-- PHASE (R10) -/
  phase : Phase
  /-- DUTY[0..2] (R11), `none` while unwritten (R14) -/
  duty : PerChannel (Option Duty)
  /-- VALID[0..2] (R13) -/
  valid : PerChannel Bool
  deriving DecidableEq, Repr

/-- One output event setDutyCycle(channel, value) (R36). -/
structure Event where
  channel : Channel
  value : Duty
  deriving DecidableEq, Repr

/-- CORE has no fault, trap or exception of any kind (R110): no constructor, so no step faults. -/
inductive Fault : Type
  deriving DecidableEq, Repr

/-- Why a step is given no meaning. -/
inductive Refusal where
  /-- Raised by an arm of `exec` for a command not modelled yet; no arm does. Safe. -/
  | notModelled (mnemonic : String)
  /-- Raised by every command presented before the first reset step (R131). Safe. -/
  | beforeFirstReset
  /-- Raised by every step, a reset step too, under a configuration that R9 calls invalid. Safe. -/
  | invalidConfiguration
  deriving DecidableEq, Repr

/-- The machine. `regs` is the hardware; `config` is the run's constant (R16, R35, R139; log entry 1); `inputs` is what
the sequencer will present, first step first (R60; log entry 4); `events` is the output history, oldest first (R36; log
entry 5); `tickCount` is the ghost n of R23 (log entry 6). -/
structure State where
  config : Config
  /-- `none` before the first reset step, when no register holds a value (R131; log entry 7). -/
  regs : Option Regs
  inputs : List Input
  events : List Event
  tickCount : Nat
  deriving DecidableEq, Repr

/-- The reset values of the registers (R22). -/
def Regs.reset : Regs :=
  { phase := 0x0000#16
    duty := ⟨none, none, none⟩
    valid := ⟨false, false, false⟩ }

/-- CORE right after a reset step, in the worked configuration, nothing presented yet and nothing put out yet. -/
def State.reset : State :=
  { config := Config.worked
    regs := some Regs.reset
    inputs := []
    events := []
    tickCount := 0 }

/-- CORE at power-on, before any reset step, in a given configuration and before a given program (R131). -/
def State.powerOn (config : Config) (inputs : List Input) : State :=
  { config := config
    regs := none
    inputs := inputs
    events := []
    tickCount := 0 }

end Sys2Proof.Machine
end

