-- ==== Sys2Proof/Machine/Ops.lean ====
section
/-! DEFINITION. The named operations over the registers, the table, the duty sink and the input ports, and the two
guards every meaning stands behind. CORE raises no exception and returns from none (R110, R115), so there is no
operation that takes one: reset is the only forced change of the machine (R114, R130). -/

namespace Sys2Proof

/-- The entry of one channel. -/
def PerChannel.get {α : Type} (v : PerChannel α) : Channel → α
  | .ch0 => v.ch0
  | .ch1 => v.ch1
  | .ch2 => v.ch2

/-- Replace the entry of one channel and no other. -/
def PerChannel.set {α : Type} (v : PerChannel α) (c : Channel) (x : α) : PerChannel α :=
  match c with
  | .ch0 => { v with ch0 := x }
  | .ch1 => { v with ch1 := x }
  | .ch2 => { v with ch2 := x }

end Sys2Proof

namespace Sys2Proof.Machine

/-- `RomRead(i)` (R33): the word SINE_TABLE[i]; six bits index exactly 64 words, so no access is out of range (R34). -/
def romRead (cfg : Config) (i : TableIndex) : Sample :=
  cfg.table[i.toNat]'(i.isLt)

/-- A step under an invalid configuration is given no meaning (R9). -/
def whenConfigured (s : State) (next : State) : Host.Outcome State Fault Refusal :=
  if s.config.valid then .next next else .refused .invalidConfiguration

/-- A command has a meaning under a valid configuration (R9) once a reset step has been taken (R131). -/
def whenReady (s : State) (next : Regs → State) : Host.Outcome State Fault Refusal :=
  match s.regs with
  | some r => whenConfigured s (next r)
  | none => if s.config.valid then .refused .beforeFirstReset else .refused .invalidConfiguration

/-- `PHASE <- p` (R10). -/
def State.writePhase (s : State) (p : Phase) : State :=
  { s with regs := s.regs.map fun r => { r with phase := p } }

/-- The registers after a write of channel c's duty value: the ten bits together, and VALID[c] set (R12, R36). -/
def Regs.writeDuty (r : Regs) (c : Channel) (v : Duty) : Regs :=
  { r with duty := r.duty.set c (some v), valid := r.valid.set c true }

/-- A write of channel c's duty value (R36): DUTY[c] <- v, VALID[c] <- 1, and one event setDutyCycle(c, v). -/
def State.writeDuty (s : State) (c : Channel) (v : Duty) : State :=
  { s with regs := s.regs.map fun r => r.writeDuty c v, events := s.events ++ [⟨c, v⟩] }

/-- The ghost count of advancing steps grows by one (R23). -/
def State.countTick (s : State) : State :=
  { s with tickCount := s.tickCount + 1 }

/-- A step with `rst` = 1 (R130): the reset values of R22 whatever the state was, no event, the ghost count 0, the
configuration untouched. -/
def applyReset (s : State) : Host.Outcome State Fault Refusal :=
  whenConfigured s { s with regs := some Regs.reset, tickCount := 0 }

/-- A clock edge at which the sequencer has nothing to do shows `rst` = 0 and the NOP word (R61, R72, D20). DEDUCED
(log entry 4). -/
def Input.idle : Input := ⟨false, 0b000#3⟩

/-- What the ports `rst` and `cmd` show at the coming step. -/
def State.presented (s : State) : Input :=
  match s.inputs with
  | [] => Input.idle
  | i :: _ => i

/-- The coming step's input is taken from the sequence. -/
def State.takeInput (s : State) : State :=
  { s with inputs := s.inputs.tail }

/-- One more input, in front of the sequence: presented at the very next step. -/
def State.present (s : State) (i : Input) : State :=
  { s with inputs := i :: s.inputs }

end Sys2Proof.Machine
end

