-- ==== Sys2Proof/Machine/Operands.lean ====
section
/-! DEFINITION. The operands of a command (R52): no command carries a register or an address. ADV and TICK act on
PHASE; EVL c takes its base phase from PHASE and its offset from the channel number it carries. -/

namespace Sys2Proof.Machine

/-- The channel an EVL's operand bits `cmd[1:0]` name: 0, 1, 2; 3 names none (R52, R53). -/
def channelOfBits (c : BitVec 2) : Option Channel :=
  match c.toNat with
  | 0 => some .ch0
  | 1 => some .ch1
  | 2 => some .ch2
  | _ => none

/-- The channel's number (R6). -/
def channelNumber : Channel → Nat
  | .ch0 => 0
  | .ch1 => 1
  | .ch2 => 2

/-- The command that evaluates a channel: EVL 0, EVL 1, EVL 2 (R52). -/
def evlOf : Channel → Instr
  | .ch0 => .evl0
  | .ch1 => .evl1
  | .ch2 => .evl2

/-- `basePhase` is always the current PHASE register (R52, D26). -/
def basePhase (r : Regs) : Phase := r.phase

/-- The channels a command evaluates, in the order of their events (R51, R96, R100). -/
def channelsOf : Instr → List Channel
  | .nop => []
  | .adv => []
  | .tick => [.ch0, .ch1, .ch2]
  | .rsv3 => []
  | .evl0 => [.ch0]
  | .evl1 => [.ch1]
  | .evl2 => [.ch2]
  | .rsv7 => []

end Sys2Proof.Machine
end

