-- ==== Sys2Proof/Machine/Flags.lean ====
section
/-! DEFINITION. CORE has no flags, condition codes or predicates (R18). Its only one-bit state is VALID[0..2], set
where a duty value is written (`Regs.writeDuty`) and cleared by reset; its only one-bit computation is the strobe
`duty_we` (R19), which holds no state (C8). -/

namespace Sys2Proof.Machine

/-- The strobe bit of one channel. -/
def strobeBit : Channel → BitVec 3
  | .ch0 => 0b001#3
  | .ch1 => 0b010#3
  | .ch2 => 0b100#3

/-- `duty_we` (R19): combinational in `rst` and `cmd`; bit c is 1 exactly when `rst` = 0 and `cmd` writes DUTY[c]. -/
def dutyWe (i : Input) : BitVec 3 :=
  if i.rst then 0b000#3
  else (channelsOf (decodeCmd i.cmd)).foldl (fun w c => w ||| strobeBit c) 0b000#3

end Sys2Proof.Machine
end

