-- ==== Sys2Proof/Machine/SineEvaluator.lean ====
section
/-! DEFINITION. Sub-block (b), the sine-table evaluator (41_sine_evaluator.md): steps 1 to 3 of Evaluate, three pure
functions. -/

namespace Sys2Proof.Machine

/-- `SamplePhase` (R80): (basePhase + offset) modulo 65536. -/
def samplePhase (base : Phase) (off : PhaseOffset) : Phase := base + off

/-- `TableIndex` (R81): the top six bits of the sample phase. -/
def tableIndex (sp : Phase) : TableIndex := (sp >>> indexShift).setWidth 6

/-- `SineSample` (R82). -/
def sineSample (cfg : Config) (i : TableIndex) : Sample := romRead cfg i

end Sys2Proof.Machine
end

