-- ==== Sys2Proof/Machine/DutyRescaler.lean ====
section
/-! DEFINITION. Sub-block (c), the three-channel duty-cycle rescaler (42_duty_rescaler.md): steps 4 to 6 of Evaluate,
Evaluate itself, and EVL c. -/

namespace Sys2Proof.Machine

/-- `Center` (R91): 32767 + int(sample) over the integers, narrowed to 16 bits at the end (R58). -/
def center (x : Sample) : Centered := BitVec.ofInt 16 (centerBias + x.toInt)

/-- `Scale` (R93): the logical shift right by SCALE_SHIFT, bits 15..6. -/
def scale (x : Centered) : Duty := (x >>> scaleShift).setWidth 10

/-- `Coarse` (R94): bits 9..2. -/
def coarse (v : Duty) : Coarse := (v >>> fineBits).setWidth 8

/-- `Fine` (R94): bits 1..0. -/
def fine (v : Duty) : Fine := (v &&& 3#10).setWidth 2

/-- `Evaluate(basePhase, offset)` (R95). -/
def evaluate (cfg : Config) (base : Phase) (off : PhaseOffset) : Duty :=
  scale (center (sineSample cfg (tableIndex (samplePhase base off))))

/-- The effect of EVL c (R96): channel c's duty value at the current PHASE, written through the sink. -/
def evaluateChannel (c : Channel) (s : State) : Host.Outcome State Fault Refusal :=
  whenReady s fun r => s.writeDuty c (evaluate s.config (basePhase r) (offset c))

/-- EVL 0 (R96). -/
def execEvl0 (s : State) : Host.Outcome State Fault Refusal := evaluateChannel .ch0 s

/-- EVL 1 (R96). -/
def execEvl1 (s : State) : Host.Outcome State Fault Refusal := evaluateChannel .ch1 s

/-- EVL 2 (R96). -/
def execEvl2 (s : State) : Host.Outcome State Fault Refusal := evaluateChannel .ch2 s

end Sys2Proof.Machine
end

