-- ==== Sys2Proof/Machine/PhaseAccumulator.lean ====
section
/-! DEFINITION. Sub-block (a), the phase accumulator (40_phase_accumulator.md): Advance, ADV, NOP and the two reserved
words, which execute as NOP (30_encoding.md R53). -/

namespace Sys2Proof.Machine

/-- `Advance(p)` (R70): p + DELTA modulo 65536, the carry discarded. -/
def advance (delta p : Phase) : Phase := p + delta

/-- NOP (R72): the state after is the state before, and no event. -/
def execNop (s : State) : Host.Outcome State Fault Refusal :=
  whenReady s fun _ => s

/-- ADV (R71): PHASE <- Advance(PHASE); one more advancing step (R23). -/
def execAdv (s : State) : Host.Outcome State Fault Refusal :=
  whenReady s fun r => (s.writePhase (advance s.config.delta r.phase)).countTick

/-- The reserved word 0b011 executes as a NOP (R53). -/
def execRsv3 (s : State) : Host.Outcome State Fault Refusal :=
  whenReady s fun _ => s

/-- The reserved word 0b111 executes as a NOP (R53). -/
def execRsv7 (s : State) : Host.Outcome State Fault Refusal :=
  whenReady s fun _ => s

end Sys2Proof.Machine
end

