-- ==== Sys2Proof/Machine/Tick.lean ====
section
/-! DEFINITION. The whole tick (43_tick.md): the advance, then the three evaluations at the new phase, in one step. -/

namespace Sys2Proof.Machine

/-- TICK (R100). The three evaluations use the new phase; the events come in channel order 0, 1, 2 (D13). -/
def execTick (s : State) : Host.Outcome State Fault Refusal :=
  whenReady s fun r =>
    let p := advance s.config.delta r.phase
    let v0 := evaluate s.config p (offset .ch0)
    let v1 := evaluate s.config p (offset .ch1)
    let v2 := evaluate s.config p (offset .ch2)
    ((((s.writePhase p).writeDuty .ch0 v0).writeDuty .ch1 v1).writeDuty .ch2 v2).countTick

end Sys2Proof.Machine
end

