-- ==== Sys2Proof/Machine/Dispatch.lean ====
section
/-! DEFINITION. One arm per command: the dispatch from a command to its meaning. -/

namespace Sys2Proof.Machine

def exec (i : Instr) (s : State) : Host.Outcome State Fault Refusal :=
  match i with
  | .nop => Sys2Proof.Machine.execNop s
  | .adv => Sys2Proof.Machine.execAdv s
  | .tick => Sys2Proof.Machine.execTick s
  | .rsv3 => Sys2Proof.Machine.execRsv3 s
  | .evl0 => Sys2Proof.Machine.execEvl0 s
  | .evl1 => Sys2Proof.Machine.execEvl1 s
  | .evl2 => Sys2Proof.Machine.execEvl2 s
  | .rsv7 => Sys2Proof.Machine.execRsv7 s

end Sys2Proof.Machine
end

