-- ==== Sys2Proof/Machine/Step.lean ====
section
/-! DEFINITION. One step of CORE: a rising edge of `clk` (10_state.md R20). -/

namespace Sys2Proof.Machine

/-- A step (R20): the ports are sampled; `rst` = 1 wins over the command (R54, R114); otherwise the command runs to
completion. -/
def step (s : State) : Host.Outcome State Fault Refusal :=
  if s.presented.rst then applyReset s.takeInput
  else exec (decodeCmd s.presented.cmd) s.takeInput

/-- The sequencer presents a given command at the very next step, with `rst` = 0 (log entry 9). Bits that are no
command word present nothing. -/
def State.withFetchWord (s : State) (nbits w : Nat) : State :=
  match decodeTableWord nbits w with
  | some i => s.present i.toInput
  | none => s

end Sys2Proof.Machine
end

