-- ==== Sys2Proof/Machine/Ports.lean ====
section
/-! DEFINITION. The output ports between steps (10_state.md R19, R21): views of the registers, no state of their own.
A port that shows an unwritten register carries no defined value (R14): `none`. -/

namespace Sys2Proof.Machine

/-- `phase` (R21). -/
def State.phasePort (s : State) : Option Phase := s.regs.map fun r => r.phase

/-- `duty_c` (R21). -/
def State.dutyPort (s : State) (c : Channel) : Option Duty := s.regs.bind fun r => r.duty.get c

/-- `coarse_c`, bits 9..2 of DUTY[c] (R12, R21). -/
def State.coarsePort (s : State) (c : Channel) : Option Coarse := (s.dutyPort c).map coarse

/-- `fine_c`, bits 1..0 of DUTY[c] (R12, R21). -/
def State.finePort (s : State) (c : Channel) : Option Fine := (s.dutyPort c).map fine

/-- `valid_c` (R21). -/
def State.validPort (s : State) (c : Channel) : Option Bool := s.regs.map fun r => r.valid.get c

/-- `duty_we` at the coming step (R19). -/
def State.dutyWePort (s : State) : BitVec 3 := dutyWe s.presented

end Sys2Proof.Machine
end

