-- ==== Sys2Proof/Safety.lean ====
section
/-! DEFINITION. What the claims speak of: when a command runs, the invariants of a run, the integer arithmetic of the
datapath, and well-formed ticks (43_tick.md R102). -/

namespace Sys2Proof.Machine

/-- The condition under which every command runs: a valid configuration (R9) and a reset step taken (R131). `r` are the
registers. -/
def State.Ready (s : State) (r : Regs) : Prop := s.config.valid = true ∧ s.regs = some r

/-- Entry i of the table as the integer it denotes. -/
def tableAt (cfg : Config) (i : Fin 64) : Int := (cfg.table[i]).toInt

/-- The index of R80 and R81 over the natural numbers. -/
def indexValue (base off : Nat) : Fin 64 := ⟨(base + off) % 65536 / 1024, by omega⟩

/-- The duty value of R95 over the integers: no width, no wrap but the one of the phase. -/
def dutyValue (cfg : Config) (base off : Nat) : Int := (32767 + tableAt cfg (indexValue base off)) / 64

/-- The commands that advance the phase (R23). -/
def advancesPhase : Instr → Bool
  | .adv => true
  | .tick => true
  | .nop => false
  | .rsv3 => false
  | .evl0 => false
  | .evl1 => false
  | .evl2 => false
  | .rsv7 => false

/-- The closed form of the accumulator (R73), with the ghost count n. -/
def PhaseInv (s : State) : Prop :=
  ∀ r, s.regs = some r → r.phase.toNat = s.tickCount * s.config.delta.toNat % 65536

/-- VALID[c] says whether DUTY[c] has been written (R13, R14). -/
def ValidInv (s : State) : Prop :=
  ∀ r, s.regs = some r → ∀ c, r.valid.get c = (r.duty.get c).isSome

/-- The value of the last event of a channel. -/
def lastValue (evs : List Event) (c : Channel) : Option Duty :=
  ((evs.filter fun e => e.channel = c).getLast?).map fun e => e.value

/-- A written DUTY[c] is the last value handed to the sink for channel c (R11). -/
def SinkInv (s : State) : Prop :=
  ∀ r c v, s.regs = some r → r.duty.get c = some v → lastValue s.events c = some v

/-- A written DUTY[c] is what Evaluate gives for channel c at the phase after some number of advances since the last
reset, not more than have happened. -/
def DutyInv (s : State) : Prop :=
  ∀ r c v, s.regs = some r → r.duty.get c = some v →
    ∃ n, n ≤ s.tickCount ∧
      v = evaluate s.config (BitVec.ofNat 16 (n * s.config.delta.toNat)) (offset c)

/-- A list of commands one after another, each on the state the one before it left. -/
def execAll : List Instr → State → Host.Outcome State Fault Refusal
  | [], s => .next s
  | i :: is, s =>
    match exec i s with
    | .next t => execAll is t
    | .fault f => .fault f
    | .refused q => .refused q

/-- What may follow the ADV of a tick: evaluations and NOPs, each channel at least once (R102). -/
def tickBody (l : List Instr) : Bool :=
  (l.all fun i => decide (i ∈ [Instr.evl0, .evl1, .evl2, .nop])) &&
    decide (Instr.evl0 ∈ l) && decide (Instr.evl1 ∈ l) && decide (Instr.evl2 ∈ l)

/-- A well-formed tick with NOPs anywhere (R102): one TICK, or one ADV and the evaluations after it. -/
def wellFormedTick : List Instr → Bool
  | [] => false
  | .nop :: l => wellFormedTick l
  | .tick :: l => l.all fun i => decide (i = Instr.nop)
  | .adv :: l => tickBody l
  | .rsv3 :: _ => false
  | .evl0 :: _ => false
  | .evl1 :: _ => false
  | .evl2 :: _ => false
  | .rsv7 :: _ => false

/-- The events of a list of commands whose evaluations all use one phase (R96, R100), in order. -/
def eventsAt (cfg : Config) (p : Phase) (l : List Instr) : List Event :=
  l.flatMap fun i => (channelsOf i).map fun c => ⟨c, evaluate cfg p (offset c)⟩

end Sys2Proof.Machine
end

