-- ==== Sys2Proof/Certificates/Slice0/Obligations.lean ====
section
/-! DEFINITION. The statements for the provers, each a proposition named after what it says. Where a statement rests on
a choice of the model or on a decision the spec marks as its own, its docstring says so. -/

section

open Sys2Proof Sys2Proof.Machine

/-! ### Encoding -/

/-- R51 (the bit assignment is the spec's decision D3): the eight words, written out from the opcode map. -/
def Obligations.OpcodeMap : Prop :=
  decodeCmd 0b000#3 = .nop ∧ decodeCmd 0b001#3 = .adv ∧ decodeCmd 0b010#3 = .tick ∧
  decodeCmd 0b011#3 = .rsv3 ∧ decodeCmd 0b100#3 = .evl0 ∧ decodeCmd 0b101#3 = .evl1 ∧
  decodeCmd 0b110#3 = .evl2 ∧ decodeCmd 0b111#3 = .rsv7

/-- R51: every command has one word and every word one command. -/
def Obligations.DecodeEncodeAgree : Prop :=
  (∀ i : Instr, decodeCmd (encode i) = i) ∧ (∀ w : CmdWord, encode (decodeCmd w) = w)

/-- R50: the command word has three bits. That a number with a higher bit set is no command is the model's choice
(log entry 10). -/
def Obligations.ThreeBitsOnly : Prop :=
  ∀ nbits w : Nat, 3 ≤ nbits → w < 2 ^ nbits →
    (w < 8 → decodeTableWord nbits w = some (decodeCmd (BitVec.ofNat 3 w))) ∧
    (8 ≤ w → decodeTableWord nbits w = none)

/-- R52, R60: the operand of EVL is the channel number in `cmd[1:0]`; its word is 0b100 + c; it selects the channel
whose offset R6 gives; c = 3 is no EVL. -/
def Obligations.EvlOperand : Prop :=
  (∀ c : BitVec 2, c ≠ 3#2 → ∃ ch, channelOfBits c = some ch ∧ channelNumber ch = c.toNat ∧
    (Line.evl c).wellFormed = true ∧
    (Line.evl c).assemble = some [⟨false, 0b100#3 + c.setWidth 3⟩] ∧
    decodeCmd (0b100#3 + c.setWidth 3) = evlOf ch) ∧
  channelOfBits 3#2 = none ∧ (Line.evl 3#2).wellFormed = false ∧ (Line.evl 3#2).assemble = none ∧
  offset .ch0 = 0#16 ∧ (offset .ch1).toNat = 21845 ∧ (offset .ch2).toNat = 43690

/-! ### Configuration -/

/-- R5 with D6: DELTA is F_DESIRED * 65536 / F_UPDATE rounded half up, and a configuration built from two
frequencies holds it and is valid. -/
def Obligations.DeltaFormula : Prop :=
  (∀ fd fu : Nat, 0 < fu →
    (deltaOf fd fu : ℤ) = ⌊((fd : ℚ) * 65536 / (fu : ℚ)) + 1 / 2⌋) ∧
  deltaOf 60 20000 = 197 ∧
  (∀ (fd fu : Nat) (t : SineTable) (cfg : Config), Config.ofFrequencies fd fu t = .ok cfg →
    cfg.valid = true ∧ cfg.table = t ∧ cfg.delta.toNat = deltaOf fd fu)

/-- R9: every pair whose DELTA is 65536 or more, and every pair whose DELTA is 0, is refused under the name of that
error; F_DESIRED >= F_UPDATE is a sufficient condition for the first (rounding reaches it from below too) and
F_DESIRED * 131072 < F_UPDATE for the second. -/
def Obligations.FrequencyBounds : Prop :=
  ∀ (fd fu : Nat) (t : SineTable), 0 < fd → 0 < fu →
    (65536 ≤ deltaOf fd fu → Config.ofFrequencies fd fu t = .error .deltaTooLarge) ∧
    (deltaOf fd fu = 0 → Config.ofFrequencies fd fu t = .error .deltaZero) ∧
    (fu ≤ fd → 65536 ≤ deltaOf fd fu) ∧
    (fd * 131072 < fu → deltaOf fd fu = 0)

/-- R4, R6, R7, R8, R16: the named constants and the relations the spec states between them. -/
def Obligations.NamedConstants : Prop :=
  indexShift = phaseBits - indexBits ∧ indexShift = 10 ∧ tableSize = 2 ^ indexBits ∧ tableSize = 64 ∧
  scaleShift = 16 - dutyBits ∧ scaleShift = 6 ∧ coarseBits = dutyBits - fineBits ∧ coarseBits = 8 ∧ fineBits = 2 ∧
  centerBias = 32767 ∧ sampleMax = 32767 ∧
  offset .ch0 = 0x0000#16 ∧ offset .ch1 = 0x5555#16 ∧ offset .ch2 = 0xAAAA#16

/-- R9 and R31 (a), (b), (d): what a valid configuration is. -/
def Obligations.ValidConfiguration : Prop :=
  ∀ cfg : Config, cfg.valid = true ↔
    (0 < cfg.delta.toNat ∧ cfg.delta.toNat < 65536 ∧
      (∀ i : Fin 64, -32767 ≤ tableAt cfg i ∧ tableAt cfg i ≤ 32767) ∧
      tableAt cfg 0 = 0 ∧ tableAt cfg 32 = 0)

/-- R31, R32: the default table is admissible, has the peak and the trough, and the two symmetries. -/
def Obligations.DefaultTable : Prop :=
  tableAdmissible sineTable = true ∧ tableAt Config.worked 16 = 32767 ∧ tableAt Config.worked 48 = -32767 ∧
  (∀ i : Fin 64, tableAt Config.worked (i + 32) = -tableAt Config.worked i) ∧
  (∀ i : Fin 33, tableAt Config.worked ⟨32 - i.val, by omega⟩ = tableAt Config.worked ⟨i.val, by omega⟩)

/-- R32 (the values are the spec's decision D8): entry i is the integer nearest to 32767 * sin(2π i / 64), and no product
lies within 0.02 of a half-integer, so that every rounding to nearest gives the same table. -/
def Obligations.TableIsNearest : Prop :=
  ∀ i : Fin 64,
    |(tableAt Config.worked i : ℝ) - 32767 * Real.sin (2 * Real.pi * (i.val : ℝ) / 64)| < 1 / 2 - 0.02

/-! ### The datapath -/

/-- R70: Advance adds DELTA modulo 65536; as DELTA is not 0 the result differs from the argument, and at a wrap it is
below it. -/
def Obligations.AdvanceFormula : Prop :=
  ∀ d p : Phase,
    (advance d p).toNat = (p.toNat + d.toNat) % 65536 ∧
    (d ≠ 0#16 → advance d p ≠ p) ∧
    (p.toNat + d.toNat < 65536 → (advance d p).toNat = p.toNat + d.toNat) ∧
    (65536 ≤ p.toNat + d.toNat → (advance d p).toNat < p.toNat)

/-- R74: the phase sequence has period 65536 / gcd(DELTA, 65536), and no shorter one. -/
def Obligations.AdvancePeriod : Prop :=
  ∀ (d p : Phase) (m n : Nat),
    (advance d)^[m] p = (advance d)^[n] p ↔
      m % (65536 / Nat.gcd d.toNat 65536) = n % (65536 / Nat.gcd d.toNat 65536)

/-- R74, R105: with DELTA = 197 the first wrap is at the 333rd advance from 0, and it leaves 65. -/
def Obligations.FirstWrap : Prop :=
  (∀ n : Nat, n ≤ 332 → ((advance 197#16)^[n] 0#16).toNat = 197 * n) ∧
  ((advance 197#16)^[333] 0#16).toNat = 65

/-- R80: the sample phase. -/
def Obligations.SamplePhaseFormula : Prop :=
  (∀ (b : Phase) (o : PhaseOffset), (samplePhase b o).toNat = (b.toNat + o.toNat) % 65536) ∧
  (∀ b : Phase, samplePhase b 0#16 = b) ∧
  samplePhase 0xAAAB#16 0x5555#16 = 0#16 ∧ samplePhase 0xFFFF#16 0xAAAA#16 = 0xAAA9#16 ∧
  (samplePhase 197#16 0x5555#16).toNat = 22042

/-- R84: adjacent channels are 21845 apart, channels 2 and 0 are 43690 one way and 21846 the other, and adjacent
channels 21 or 22 table entries. -/
def Obligations.ChannelSeparation : Prop :=
  ∀ b : Phase,
    samplePhase b (offset .ch1) - samplePhase b (offset .ch0) = 21845#16 ∧
    samplePhase b (offset .ch2) - samplePhase b (offset .ch1) = 21845#16 ∧
    samplePhase b (offset .ch2) - samplePhase b (offset .ch0) = 43690#16 ∧
    samplePhase b (offset .ch0) - samplePhase b (offset .ch2) = 21846#16 ∧
    (∀ c d, (c = Channel.ch0 ∧ d = Channel.ch1) ∨ (c = Channel.ch1 ∧ d = Channel.ch2) →
      tableIndex (samplePhase b (offset d)) - tableIndex (samplePhase b (offset c)) = 21#6 ∨
      tableIndex (samplePhase b (offset d)) - tableIndex (samplePhase b (offset c)) = 22#6)

/-- R81: the index is the top six bits; each entry serves 1024 consecutive sample phases; the result is in 0..63. -/
def Obligations.TableIndexFormula : Prop :=
  ∀ sp : Phase,
    (tableIndex sp).toNat = sp.toNat / 1024 ∧
    tableIndex sp = sp.extractLsb' 10 6 ∧
    (tableIndex sp).toNat < 64 ∧
    (∀ i : TableIndex, tableIndex sp = i ↔ 1024 * i.toNat ≤ sp.toNat ∧ sp.toNat ≤ 1024 * i.toNat + 1023)

/-- R91, R92, R93 (that the factor is exactly the shift by 6 is the spec's decision D10): on a sample in
[-32767, 32767] the centred value is the exact sum, in [0, 65534], and the scaled value its floor by 64; the scaling
of any centred value is bits 15..6. -/
def Obligations.RescaleExact : Prop :=
  (∀ x : Sample, -32767 ≤ x.toInt → x.toInt ≤ 32767 →
    ((center x).toNat : Int) = 32767 + x.toInt ∧ (center x).toNat ≤ 65534 ∧
    ((scale (center x)).toNat : Int) = (32767 + x.toInt) / 64) ∧
  (∀ y : Centered, (scale y).toNat = y.toNat / 64 ∧ scale y = y.extractLsb' 6 10)

/-- R94: the split, which loses nothing. -/
def Obligations.SplitLossless : Prop :=
  ∀ v : Duty,
    (coarse v).toNat = v.toNat / 4 ∧ coarse v = v.extractLsb' 2 8 ∧
    (fine v).toNat = v.toNat % 4 ∧ fine v = v.extractLsb' 0 2 ∧
    v.toNat = 4 * (coarse v).toNat + (fine v).toNat

/-- R82: the sample is the word at the index, the same at every read of one table, on an admissible table in
[-32767, 32767]; and the worked examples with the default table. -/
def Obligations.TableRead : Prop :=
  (sineSample Config.worked 21#6).toInt = 28898 ∧ (sineSample Config.worked 42#6).toInt = -27245 ∧
  (sineSample Config.worked 48#6).toInt = -32767 ∧
  ∀ (cfg : Config) (i : TableIndex),
    (sineSample cfg i).toInt = tableAt cfg ⟨i.toNat, i.isLt⟩ ∧
    (∀ cfg' : Config, cfg'.table = cfg.table → sineSample cfg' i = sineSample cfg i) ∧
    (cfg.valid = true → -32767 ≤ (sineSample cfg i).toInt ∧ (sineSample cfg i).toInt ≤ 32767)

/-- R95: Evaluate is the integer formula of the five lines, and depends on its arguments only through the top six
bits of their sum. -/
def Obligations.EvaluateExact : Prop :=
  (∀ (cfg : Config) (b : Phase) (o : PhaseOffset), cfg.valid = true →
    ((evaluate cfg b o).toNat : Int) = dutyValue cfg b.toNat o.toNat) ∧
  (∀ (cfg : Config) (b b' : Phase) (o o' : PhaseOffset),
    (b.toNat + o.toNat) % 65536 / 1024 = (b'.toNat + o'.toNat) % 65536 / 1024 →
    evaluate cfg b o = evaluate cfg b' o')

/-- R97: the range guarantee for every admissible table, and with the default table both ends and the mid-scale. -/
def Obligations.DutyRange : Prop :=
  (∀ (cfg : Config) (b o : Nat), cfg.valid = true → 0 ≤ dutyValue cfg b o ∧ dutyValue cfg b o ≤ 1023) ∧
  (∀ (cfg : Config) (b : Phase) (o : PhaseOffset), cfg.table = sineTable →
    (tableIndex (samplePhase b o) = 48#6 → evaluate cfg b o = 0#10) ∧
    (tableIndex (samplePhase b o) = 16#6 → evaluate cfg b o = 1023#10) ∧
    (tableIndex (samplePhase b o) = 0#6 ∨ tableIndex (samplePhase b o) = 32#6 → evaluate cfg b o = 511#10))

/-! ### Reset and the steps -/

/-- R22: the state right after reset. -/
def Obligations.ResetValues : Prop :=
  ∃ r, State.reset.regs = some r ∧ r.phase = 0#16 ∧
    (∀ c, r.duty.get c = none ∧ r.valid.get c = false) ∧
    State.reset.events = [] ∧ State.reset.tickCount = 0 ∧ State.reset.Ready r

/-- R130, R54 (the reset pin is the spec's decision D2, the unwritten DUTY registers D12): a step with `rst` = 1 gives
the reset registers whatever the state was and whatever `cmd` shows; it emits nothing, leaves the configuration, and
clears the ghost count. -/
def Obligations.ResetStep : Prop :=
  ∀ (s : State) (w : CmdWord) (rest : List Input), s.config.valid = true → s.inputs = ⟨true, w⟩ :: rest →
    step s = .next { s with
      regs := some ⟨0#16, ⟨none, none, none⟩, ⟨false, false, false⟩⟩, inputs := rest, tickCount := 0 }

/-- R130 (decisions D2, D12): reset may be applied to any state and held for any number of steps with the same effect,
and the first command that takes effect is the one presented at the first step with `rst` = 0. -/
def Obligations.ResetHeld : Prop :=
  ∀ (s : State) (w : CmdWord) (ws : List CmdWord) (rest : List Input), s.config.valid = true →
    (s.inputs = (w :: ws).map (fun x => Input.mk true x) ++ rest →
      Host.Core.run Sys2Proof.core (ws.length + 1) s = .next { s with
        regs := some ⟨0#16, ⟨none, none, none⟩, ⟨false, false, false⟩⟩, inputs := rest, tickCount := 0 }) ∧
    (∀ v : CmdWord, s.inputs = (w :: ws).map (fun x => Input.mk true x) ++ ⟨false, v⟩ :: rest →
      Host.Core.run Sys2Proof.core (ws.length + 2) s = exec (decodeCmd v) { s with
        regs := some ⟨0#16, ⟨none, none, none⟩, ⟨false, false, false⟩⟩, inputs := rest, tickCount := 0 })

/-- R131 (decision D22): at power-on no register holds a value; before the first reset step every command is refused;
a run from power-on is given a meaning exactly when it begins with a reset step. -/
def Obligations.BeforeFirstReset : Prop :=
  (∀ (cfg : Config) (ins : List Input), (State.powerOn cfg ins).regs = none) ∧
  (∀ s : State, s.config.valid = true → s.regs = none →
    (∀ i : Instr, exec i s = .refused .beforeFirstReset) ∧
    (s.presented.rst = false → step s = .refused .beforeFirstReset)) ∧
  (∀ (cfg : Config) (ins : List Input) (k : Nat), cfg.valid = true →
    (beginsWithReset ins = false →
      Host.Core.run Sys2Proof.core (k + 1) (State.powerOn cfg ins) = .refused .beforeFirstReset) ∧
    (beginsWithReset ins = true →
      ∃ t r, Host.Core.run Sys2Proof.core (k + 1) (State.powerOn cfg ins) = .next t ∧ t.Ready r))

/-- R9: under an invalid configuration nothing runs, a reset step neither. -/
def Obligations.InvalidConfigurationRefused : Prop :=
  ∀ s : State, s.config.valid = false →
    (∀ i : Instr, exec i s = .refused .invalidConfiguration) ∧ step s = .refused .invalidConfiguration

/-- R20: a step with `rst` = 0 is the command that `cmd` decodes to, on the state with that input taken. That a clock
edge with nothing left to present is a NOP is the model's reading of R61 and D20 (log entry 4). -/
def Obligations.StepRunsCommand : Prop :=
  (∀ (s : State) (w : CmdWord) (rest : List Input), s.inputs = ⟨false, w⟩ :: rest →
    step s = exec (decodeCmd w) { s with inputs := rest }) ∧
  (∀ (s : State) (i : Instr) (rest : List Input), s.inputs = i.toInput :: rest →
    step s = exec i { s with inputs := rest }) ∧
  (∀ s : State, s.inputs = [] → step s = exec .nop s)

/-- The model's placing of a command at the next step (log entry 9): the step runs exactly that command, and nothing
else of the state has changed. -/
def Obligations.FetchWordRuns : Prop :=
  ∀ (s : State) (i : Instr), step (s.withFetchWord 8 (encode i).toNat) = exec i s

/-! ### The commands: result, frame and completion

The words of the commands are the spec's decision D3. -/

/-- R72, R53 (the reserved words are the spec's decision D4): NOP and the two reserved words complete and change
nothing at all. -/
def Obligations.NopAndReserved : Prop :=
  decodeCmd 0b000#3 = .nop ∧ decodeCmd 0b011#3 = .rsv3 ∧ decodeCmd 0b111#3 = .rsv7 ∧
  ∀ (s : State) (r : Regs), s.Ready r →
    exec .nop s = .next s ∧ exec .rsv3 s = .next s ∧ exec .rsv7 s = .next s

/-- R71: ADV completes; PHASE becomes (PHASE + DELTA) mod 65536 and the `phase` port shows it, the ghost count of R23
grows by one, and nothing else changes. -/
def Obligations.AdvEffect : Prop :=
  decodeCmd 0b001#3 = .adv ∧
  ∀ (s : State) (r : Regs), s.Ready r →
    ∃ p : Phase, p.toNat = (r.phase.toNat + s.config.delta.toNat) % 65536 ∧
      exec .adv s = .next { s with regs := some { r with phase := p }, tickCount := s.tickCount + 1 } ∧
      ∀ t, exec .adv s = .next t → t.phasePort = some p

/-- R96: EVL 0, EVL 1 and EVL 2 complete; each writes its channel's DUTY with the value of R95 at PHASE and its offset,
sets its VALID, emits its event, and changes nothing else. -/
def Obligations.EvlEffect : Prop :=
  decodeCmd 0b100#3 = .evl0 ∧ decodeCmd 0b101#3 = .evl1 ∧ decodeCmd 0b110#3 = .evl2 ∧
  ∀ (s : State) (r : Regs), s.Ready r →
    (∃ v : Duty, (v.toNat : Int) = dutyValue s.config r.phase.toNat 0x0000 ∧
      exec .evl0 s = .next { s with
        regs := some ⟨r.phase, ⟨some v, r.duty.ch1, r.duty.ch2⟩, ⟨true, r.valid.ch1, r.valid.ch2⟩⟩,
        events := s.events ++ [⟨.ch0, v⟩] }) ∧
    (∃ v : Duty, (v.toNat : Int) = dutyValue s.config r.phase.toNat 0x5555 ∧
      exec .evl1 s = .next { s with
        regs := some ⟨r.phase, ⟨r.duty.ch0, some v, r.duty.ch2⟩, ⟨r.valid.ch0, true, r.valid.ch2⟩⟩,
        events := s.events ++ [⟨.ch1, v⟩] }) ∧
    (∃ v : Duty, (v.toNat : Int) = dutyValue s.config r.phase.toNat 0xAAAA ∧
      exec .evl2 s = .next { s with
        regs := some ⟨r.phase, ⟨r.duty.ch0, r.duty.ch1, some v⟩, ⟨r.valid.ch0, r.valid.ch1, true⟩⟩,
        events := s.events ++ [⟨.ch2, v⟩] })

/-- R100 (the event order is the spec's decision D13): TICK completes; PHASE advances, the three DUTY values are those
of the new phase, all VALID bits are set, the three events come in channel order, and nothing else changes. -/
def Obligations.TickEffect : Prop :=
  decodeCmd 0b010#3 = .tick ∧
  ∀ (s : State) (r : Regs), s.Ready r →
    ∃ (p : Phase) (v0 v1 v2 : Duty),
      p.toNat = (r.phase.toNat + s.config.delta.toNat) % 65536 ∧
      (v0.toNat : Int) = dutyValue s.config p.toNat 0x0000 ∧
      (v1.toNat : Int) = dutyValue s.config p.toNat 0x5555 ∧
      (v2.toNat : Int) = dutyValue s.config p.toNat 0xAAAA ∧
      exec .tick s = .next { s with
        regs := some ⟨p, ⟨some v0, some v1, some v2⟩, ⟨true, true, true⟩⟩,
        events := s.events ++ [⟨.ch0, v0⟩, ⟨.ch1, v1⟩, ⟨.ch2, v2⟩],
        tickCount := s.tickCount + 1 }

/-- R101: from any state TICK and ADV; EVL 0; EVL 1; EVL 2 answer the same, registers, events and all; and so do the
one step and the four steps of the machine. -/
def Obligations.TickIsFourCommands : Prop :=
  (∀ s : State, execAll [.adv, .evl0, .evl1, .evl2] s = exec .tick s) ∧
  (∀ (s : State) (rest : List Input),
    Host.Core.run Sys2Proof.core 4
        { s with inputs := [Instr.adv, .evl0, .evl1, .evl2].map Instr.toInput ++ rest } =
      Host.Core.run Sys2Proof.core 1 { s with inputs := Instr.tick.toInput :: rest })

/-- R101: in any other order of the channels the final registers are those of TICK, and the events come in that
order. -/
def Obligations.EvaluationOrderFree : Prop :=
  ∀ (s : State) (r : Regs) (a b c : Channel), s.Ready r → a ≠ b → b ≠ c → a ≠ c →
    ∃ t p, exec .tick s = .next t ∧ t.phasePort = some p ∧
      execAll [.adv, evlOf a, evlOf b, evlOf c] s = .next { t with
        events := s.events ++ [a, b, c].map fun x => ⟨x, evaluate s.config p (offset x)⟩ }

/-- R96 corner case (i): the same EVL twice with no advance between gives the same registers and a second identical
event. -/
def Obligations.EvlIdempotent : Prop :=
  ∀ (s : State) (r : Regs) (c : Channel), s.Ready r →
    ∃ t v, exec (evlOf c) s = .next t ∧ t.events = s.events ++ [⟨c, v⟩] ∧ t.dutyPort c = some v ∧
      exec (evlOf c) t = .next { t with events := s.events ++ [⟨c, v⟩, ⟨c, v⟩] }

/-- R104, R96 corner case (ii): from the reset registers the first TICK writes the values of phase DELTA, and an EVL
presented before any advance writes that of phase 0: with the default table 511, 963 and 86 for channels 0, 1, 2. -/
def Obligations.FirstEvaluation : Prop :=
  ∀ s : State, s.Ready Regs.reset →
    (∃ t, exec .tick s = .next t ∧ t.phasePort = some s.config.delta ∧
      ∀ c, t.dutyPort c = some (evaluate s.config s.config.delta (offset c))) ∧
    (∀ c, ∃ t, exec (evlOf c) s = .next t ∧ t.phasePort = some 0#16 ∧
      t.dutyPort c = some (evaluate s.config 0#16 (offset c)) ∧
      (∀ d, d ≠ c → t.dutyPort d = none) ∧
      (s.config.table = sineTable →
        t.dutyPort c = some (match c with
          | .ch0 => 511#10
          | .ch1 => 963#10
          | .ch2 => 86#10)))

/-- R110: no step of any state faults, and in every state after a reset with a valid configuration every command
completes and leaves such a state. -/
def Obligations.EveryCommandCompletes : Prop :=
  (∀ (s : State) (f : Fault), step s ≠ .fault f) ∧
  ∀ (s : State) (r : Regs) (i : Instr), s.Ready r → ∃ t r', exec i s = .next t ∧ t.Ready r'

/-- R106, R143: nothing ends a run, whatever is presented. Past the end of `inputs` the model presents NOPs (log
entry 4). -/
def Obligations.NoRunEnds : Prop :=
  ∀ (k : Nat) (s : State) (r : Regs), s.Ready r →
    ∃ t r', Host.Core.run Sys2Proof.core k s = .next t ∧ t.Ready r'

/-! ### Rules of the whole machine -/

/-- R16, R35, R139: no step changes DELTA or the table. -/
def Obligations.ConfigurationKept : Prop :=
  ∀ s t : State, step s = .next t → t.config = s.config

/-- R10: without a reset, PHASE advances at the words of ADV and TICK and at no other word. -/
def Obligations.PhaseWriters : Prop :=
  ∀ (s t : State) (r : Regs), step s = .next t → s.regs = some r → s.presented.rst = false →
    ∃ r', t.regs = some r' ∧
      r'.phase = if s.presented.cmd = 0b001#3 ∨ s.presented.cmd = 0b010#3
        then r.phase + s.config.delta else r.phase

/-- R11, R96, R100: without a reset, DUTY[c] is written at the words of EVL c and TICK, with Evaluate of the phase the
step leaves, and at no other word. -/
def Obligations.DutyWriters : Prop :=
  ∀ (s t : State) (r : Regs) (c : Channel), step s = .next t → s.regs = some r → s.presented.rst = false →
    ∃ r', t.regs = some r' ∧
      r'.duty.get c =
        if s.presented.cmd = 0b010#3 ∨ s.presented.cmd = 0b100#3 + BitVec.ofNat 3 (channelNumber c)
        then some (evaluate s.config r'.phase (offset c)) else r.duty.get c

/-- R13: without a reset, VALID[c] is set at the words of EVL c and TICK and otherwise kept, so once set it stays set;
a reset step clears all three. -/
def Obligations.ValidWriters : Prop :=
  ∀ (s t : State) (c : Channel), step s = .next t →
    ∃ r', t.regs = some r' ∧
      (s.presented.rst = true → r'.valid.get c = false) ∧
      (∀ r, s.regs = some r → s.presented.rst = false →
        (r'.valid.get c = true ↔
          r.valid.get c = true ∨ s.presented.cmd = 0b010#3 ∨
            s.presented.cmd = 0b100#3 + BitVec.ofNat 3 (channelNumber c)))

/-- R23: the ghost count is 0 after a reset step and grows by one at ADV and TICK. It is the spec's ghost; no hardware
holds it (log entry 6). -/
def Obligations.GhostCount : Prop :=
  ∀ s t : State, step s = .next t →
    t.tickCount =
      if s.presented.rst = true then 0
      else if s.presented.cmd = 0b001#3 ∨ s.presented.cmd = 0b010#3 then s.tickCount + 1
      else s.tickCount

/-- R20, R41: a step takes exactly the next input. The sequence of inputs is the model's own field (log entry 4). -/
def Obligations.OneInputPerStep : Prop :=
  ∀ s t : State, step s = .next t → t.inputs = s.inputs.tail

/-- R19 (the strobe is the spec's decision D15): bit c of `duty_we` is 1 exactly when `rst` = 0 and the command is
EVL c or TICK. -/
def Obligations.DutyWeBits : Prop :=
  ∀ (i : Input) (c : Channel),
    (dutyWe i).getLsbD (channelNumber c) = true ↔
      i.rst = false ∧ (i.cmd = 0b010#3 ∨ i.cmd = 0b100#3 + BitVec.ofNat 3 (channelNumber c))

/-- R36, R19, R100: a step's events are those of the channels whose strobe bit is 1, once each, in channel order; each
carries the value its DUTY now holds with VALID set; and the history is only ever added to. -/
def Obligations.EventsFollowStrobe : Prop :=
  ∀ s t : State, step s = .next t →
    ∃ new : List Event, t.events = s.events ++ new ∧
      new.map Event.channel =
        [Channel.ch0, .ch1, .ch2].filter (fun c => s.dutyWePort.getLsbD (channelNumber c)) ∧
      ∀ e ∈ new, t.dutyPort e.channel = some e.value ∧ t.validPort e.channel = some true

/-- R11: no result depends on a DUTY value. Two machines alike but for DUTY do the same at every command: what one
writes the other writes, and what a command does not write each keeps. -/
def Obligations.DutyNeverRead : Prop :=
  ∀ (s : State) (r : Regs) (d : PerChannel (Option Duty)) (i : Instr), s.Ready r →
    ∃ t t' q q', exec i s = .next t ∧ exec i { s with regs := some { r with duty := d } } = .next t' ∧
      t.regs = some q ∧ t'.regs = some q' ∧ q'.phase = q.phase ∧ q'.valid = q.valid ∧
      t'.config = t.config ∧ t'.inputs = t.inputs ∧ t'.events = t.events ∧ t'.tickCount = t.tickCount ∧
      ∀ c, (c ∈ channelsOf i → q'.duty.get c = q.duty.get c) ∧
        (c ∉ channelsOf i → q.duty.get c = r.duty.get c ∧ q'.duty.get c = d.get c)

/-- R15, R20: what a step does to the registers, and the events it emits, depend on the configuration, the registers
and the two ports only: not on the output history, the ghost count or the inputs still to come. -/
def Obligations.StepDependsOnRegistersAndPorts : Prop :=
  ∀ s s' t : State, s'.config = s.config → s'.regs = s.regs → s'.presented = s.presented → step s = .next t →
    ∃ t' new, step s' = .next t' ∧ t'.regs = t.regs ∧ t'.config = t.config ∧
      t.events = s.events ++ new ∧ t'.events = s'.events ++ new

/-! ### Invariants of every step -/

/-- R73: every step keeps the closed form PHASE = (n * DELTA) mod 65536. -/
def Obligations.PhaseClosedFormKept : Prop :=
  ∀ s t : State, PhaseInv s → step s = .next t → PhaseInv t

/-- R13, R14: every step keeps VALID[c] = 1 exactly where DUTY[c] holds a value. -/
def Obligations.ValidMeansWrittenKept : Prop :=
  ∀ s t : State, ValidInv s → step s = .next t → ValidInv t

/-- R11: every step keeps that a written DUTY[c] is the last value handed to the sink for channel c. -/
def Obligations.DutyIsLastSinkValueKept : Prop :=
  ∀ s t : State, SinkInv s → step s = .next t → SinkInv t

/-- R11, R73: every step keeps that a written DUTY[c] is Evaluate at the phase after some number of advances since the
last reset. -/
def Obligations.DutyIsEvaluationKept : Prop :=
  ∀ s t : State, PhaseInv s → DutyInv s → step s = .next t → DutyInv t

/-- R22, R131: the four invariants hold right after reset, and at power-on whatever is presented. -/
def Obligations.InvariantsAtStart : Prop :=
  (PhaseInv State.reset ∧ ValidInv State.reset ∧ SinkInv State.reset ∧ DutyInv State.reset) ∧
  (∀ (cfg : Config) (ins : List Input), PhaseInv (State.powerOn cfg ins) ∧
    ValidInv (State.powerOn cfg ins) ∧ SinkInv (State.powerOn cfg ins) ∧ DutyInv (State.powerOn cfg ins))

/-! ### Whole runs -/

/-- R73: after a reset step and any commands, PHASE = (n * DELTA) mod 65536 with n the number of ADV and TICK steps
among them, for every n. -/
def Obligations.PhaseAfterRun : Prop :=
  ∀ (s : State) (w : CmdWord) (l : List Instr) (rest : List Input), s.config.valid = true →
    s.inputs = ⟨true, w⟩ :: (l.map Instr.toInput ++ rest) →
    ∃ t r, Host.Core.run Sys2Proof.core (l.length + 1) s = .next t ∧ t.regs = some r ∧
      r.phase.toNat = l.countP advancesPhase * s.config.delta.toNat % 65536 ∧ t.inputs = rest

/-- R102, R103: a well-formed tick from any state after a reset: the phase advances once, every channel holds
Evaluate of the new phase, and the tick's events carry those values. -/
def Obligations.WellFormedTickEffect : Prop :=
  ∀ (s : State) (r : Regs) (l : List Instr) (rest : List Input), s.Ready r → wellFormedTick l = true →
    s.inputs = l.map Instr.toInput ++ rest →
    ∃ p : Phase, p.toNat = (r.phase.toNat + s.config.delta.toNat) % 65536 ∧
      Host.Core.run Sys2Proof.core l.length s = .next
        { config := s.config
          regs := some ⟨p, ⟨some (evaluate s.config p (offset .ch0)), some (evaluate s.config p (offset .ch1)),
            some (evaluate s.config p (offset .ch2))⟩, ⟨true, true, true⟩⟩
          inputs := rest
          events := s.events ++ eventsAt s.config p l
          tickCount := s.tickCount + 1 }

/-- R103: after the n-th tick of a well-formed run, from whatever state the run began, PHASE = (n * DELTA) mod 65536,
every DUTY[c] is Evaluate of that phase, and the events of that tick carry those values. -/
def Obligations.WellFormedRunEffect : Prop :=
  ∀ (s : State) (w : CmdWord) (ticks : List (List Instr)) (last : List Instr) (rest : List Input),
    s.config.valid = true → (∀ l ∈ ticks, wellFormedTick l = true) → wellFormedTick last = true →
    s.inputs = ⟨true, w⟩ :: (ticks.flatten.map Instr.toInput ++ (last.map Instr.toInput ++ rest)) →
    ∃ u t r, Host.Core.run Sys2Proof.core (ticks.flatten.length + 1) s = .next u ∧
      Host.Core.run Sys2Proof.core last.length u = .next t ∧ t.regs = some r ∧
      r.phase.toNat = (ticks.length + 1) * s.config.delta.toNat % 65536 ∧
      (∀ c, r.duty.get c = some (evaluate s.config r.phase (offset c)) ∧ r.valid.get c = true) ∧
      t.events = u.events ++ eventsAt s.config r.phase last

/-! ### Ports and hazards -/

/-- R12, R21: the ports show the registers; the coarse and fine ports of a written channel are bits 9..2 and 1..0 of
the same value. -/
def Obligations.PortsShowRegisters : Prop :=
  ∀ (s : State) (r : Regs) (c : Channel), s.regs = some r →
    s.phasePort = some r.phase ∧ s.dutyPort c = r.duty.get c ∧ s.validPort c = some (r.valid.get c) ∧
    (r.duty.get c = none → s.coarsePort c = none ∧ s.finePort c = none) ∧
    (∀ v, r.duty.get c = some v → ∃ hi lo, s.coarsePort c = some hi ∧ s.finePort c = some lo ∧
      hi = v.extractLsb' 2 8 ∧ lo = v.extractLsb' 0 2 ∧ v = hi ++ lo)

/-- R14, R137: after a reset step no channel's duty ports carry a value; and where VALID says what it means, a
channel's ports carry one exactly while its VALID is 1. -/
def Obligations.UnwrittenPorts : Prop :=
  (∀ (s t : State) (c : Channel), s.presented.rst = true → step s = .next t →
    t.dutyPort c = none ∧ t.coarsePort c = none ∧ t.finePort c = none ∧ t.validPort c = some false ∧
    t.events = s.events) ∧
  (∀ (s : State) (c : Channel), ValidInv s →
    ((∃ v, s.dutyPort c = some v) ↔ s.validPort c = some true) ∧
    ((∃ v, s.coarsePort c = some v) ↔ s.validPort c = some true) ∧
    ((∃ v, s.finePort c = some v) ↔ s.validPort c = some true))

/-- R134, R135: what the hardware does when the tick protocol is broken. Two ADVs move the phase by 2 * DELTA; an EVL
before the ADV is at the old phase and one after it at the new; between an ADV and the evaluations the other channels
hold what they held. -/
def Obligations.ProtocolViolations : Prop :=
  ∀ (s : State) (r : Regs) (c d : Channel), s.Ready r → c ≠ d →
    (∃ p : Phase, p.toNat = (r.phase.toNat + 2 * s.config.delta.toNat) % 65536 ∧
      execAll [.adv, .adv] s =
        .next { s with regs := some { r with phase := p }, tickCount := s.tickCount + 2 }) ∧
    (∃ t q, execAll [evlOf c, .adv, evlOf d] s = .next t ∧ t.regs = some q ∧
      q.duty.get c = some (evaluate s.config r.phase (offset c)) ∧
      q.phase = r.phase + s.config.delta ∧
      q.duty.get d = some (evaluate s.config q.phase (offset d))) ∧
    (∃ t q, execAll [.adv, evlOf c] s = .next t ∧ t.regs = some q ∧
      q.phase = r.phase + s.config.delta ∧
      q.duty.get c = some (evaluate s.config q.phase (offset c)) ∧
      q.duty.get d = r.duty.get d ∧ q.valid.get d = r.valid.get d)

end
end

