-- ==== Sys2Proof/Laws/Datapath.lean ====
section
/-! SUPPORT. One lemma per function of the datapath: what it computes, over the natural numbers or the integers. -/

namespace Sys2Proof.Machine

theorem advance_toNat (d p : Phase) : (advance d p).toNat = (p.toNat + d.toNat) % 65536 :=
  BitVec.toNat_add p d

theorem samplePhase_toNat (p : Phase) (o : PhaseOffset) :
    (samplePhase p o).toNat = (p.toNat + o.toNat) % 65536 :=
  BitVec.toNat_add p o

theorem tableIndex_toNat (sp : Phase) : (tableIndex sp).toNat = sp.toNat / 1024 := by
  have h := sp.isLt
  simp only [tableIndex, indexShift, BitVec.toNat_setWidth, BitVec.toNat_ushiftRight,
    Nat.shiftRight_eq_div_pow]
  omega

theorem scale_toNat (x : Centered) : (scale x).toNat = x.toNat / 64 := by
  have h := x.isLt
  simp only [scale, scaleShift, BitVec.toNat_setWidth, BitVec.toNat_ushiftRight,
    Nat.shiftRight_eq_div_pow]
  omega

theorem center_toNat {x : Sample} (lo : -32767 ≤ x.toInt) (hi : x.toInt ≤ 32767) :
    ((center x).toNat : Int) = 32767 + x.toInt := by
  simp only [center, centerBias, BitVec.toNat_ofInt]
  omega

theorem sampleAdmissible_iff (x : Sample) :
    sampleAdmissible x = true ↔ -32767 ≤ x.toInt ∧ x.toInt ≤ 32767 := by
  rw [sampleAdmissible, Bool.and_eq_true, decide_eq_true_eq, decide_eq_true_eq]
  exact Iff.rfl

theorem romRead_admissible {cfg : Config} (h : cfg.valid = true) (i : TableIndex) :
    -32767 ≤ (romRead cfg i).toInt ∧ (romRead cfg i).toInt ≤ 32767 := by
  simp only [Config.valid, tableAdmissible, Bool.and_eq_true, List.all_eq_true] at h
  have hm : romRead cfg i ∈ cfg.table.toList := by
    simp [romRead]
  exact (sampleAdmissible_iff _).mp (h.2.1.1 _ hm)

end Sys2Proof.Machine
end

