-- ==== Sys2Proof/Laws/State.lean ====
section
/-! SUPPORT. One lemma per field per update of the state, true by unfolding once, so that no later proof unfolds a
record update; and the laws of a per-channel record. -/

namespace Sys2Proof

@[simp] theorem PerChannel.get_set_self {α : Type} (v : PerChannel α) (c : Channel) (x : α) :
    (v.set c x).get c = x := by
  cases c <;> rfl

theorem PerChannel.get_set_ne {α : Type} (v : PerChannel α) {c d : Channel} (x : α) (h : d ≠ c) :
    (v.set c x).get d = v.get d := by
  cases c <;> cases d <;> first | rfl | exact absurd rfl h

theorem PerChannel.get_set {α : Type} (v : PerChannel α) (c d : Channel) (x : α) :
    (v.set c x).get d = if d = c then x else v.get d := by
  cases c <;> cases d <;> rfl

theorem PerChannel.ext_get {α : Type} {v w : PerChannel α} (h : ∀ c, v.get c = w.get c) : v = w := by
  cases v
  cases w
  simpa [PerChannel.get] using And.intro (h .ch0) (And.intro (h .ch1) (h .ch2))

end Sys2Proof

namespace Sys2Proof.Machine

variable (s : State) (p : Phase) (c : Channel) (v : Duty) (r : Regs) (i : Input)

@[simp] theorem writePhase_config : (s.writePhase p).config = s.config := rfl
@[simp] theorem writePhase_regs :
    (s.writePhase p).regs = s.regs.map fun r => { r with phase := p } := rfl
@[simp] theorem writePhase_inputs : (s.writePhase p).inputs = s.inputs := rfl
@[simp] theorem writePhase_events : (s.writePhase p).events = s.events := rfl
@[simp] theorem writePhase_tickCount : (s.writePhase p).tickCount = s.tickCount := rfl

@[simp] theorem writeDuty_config : (s.writeDuty c v).config = s.config := rfl
@[simp] theorem writeDuty_regs : (s.writeDuty c v).regs = s.regs.map fun r => r.writeDuty c v := rfl
@[simp] theorem writeDuty_inputs : (s.writeDuty c v).inputs = s.inputs := rfl
@[simp] theorem writeDuty_events : (s.writeDuty c v).events = s.events ++ [⟨c, v⟩] := rfl
@[simp] theorem writeDuty_tickCount : (s.writeDuty c v).tickCount = s.tickCount := rfl

@[simp] theorem regs_writeDuty_phase : (r.writeDuty c v).phase = r.phase := rfl
@[simp] theorem regs_writeDuty_duty : (r.writeDuty c v).duty = r.duty.set c (some v) := rfl
@[simp] theorem regs_writeDuty_valid : (r.writeDuty c v).valid = r.valid.set c true := rfl

@[simp] theorem countTick_config : s.countTick.config = s.config := rfl
@[simp] theorem countTick_regs : s.countTick.regs = s.regs := rfl
@[simp] theorem countTick_inputs : s.countTick.inputs = s.inputs := rfl
@[simp] theorem countTick_events : s.countTick.events = s.events := rfl
@[simp] theorem countTick_tickCount : s.countTick.tickCount = s.tickCount + 1 := rfl

@[simp] theorem takeInput_config : s.takeInput.config = s.config := rfl
@[simp] theorem takeInput_regs : s.takeInput.regs = s.regs := rfl
@[simp] theorem takeInput_inputs : s.takeInput.inputs = s.inputs.tail := rfl
@[simp] theorem takeInput_events : s.takeInput.events = s.events := rfl
@[simp] theorem takeInput_tickCount : s.takeInput.tickCount = s.tickCount := rfl

@[simp] theorem present_config : (s.present i).config = s.config := rfl
@[simp] theorem present_regs : (s.present i).regs = s.regs := rfl
@[simp] theorem present_inputs : (s.present i).inputs = i :: s.inputs := rfl
@[simp] theorem present_events : (s.present i).events = s.events := rfl
@[simp] theorem present_tickCount : (s.present i).tickCount = s.tickCount := rfl

@[simp] theorem present_presented : (s.present i).presented = i := rfl
@[simp] theorem present_takeInput : (s.present i).takeInput = s := rfl

theorem presented_of_cons {s : State} {i : Input} {rest : List Input} (h : s.inputs = i :: rest) :
    s.presented = i := by
  simp [State.presented, h]

theorem presented_of_nil {s : State} (h : s.inputs = []) : s.presented = Input.idle := by
  simp [State.presented, h]

theorem takeInput_of_cons {s : State} {i : Input} {rest : List Input} (h : s.inputs = i :: rest) :
    s.takeInput = { s with inputs := rest } := by
  simp [State.takeInput, h]

end Sys2Proof.Machine
end

