-- ==== Sys2Proof/Laws/Ops.lean ====
section
/-! SUPPORT. What each guard, the reset step and a step can answer, said once. -/

namespace Sys2Proof.Machine

theorem whenConfigured_eq {s t : State} (h : s.config.valid = true) : whenConfigured s t = .next t := by
  simp [whenConfigured, h]

theorem whenConfigured_next {s t u : State} (h : whenConfigured s t = .next u) :
    s.config.valid = true ∧ u = t := by
  unfold whenConfigured at h
  split at h
  · exact ⟨‹_›, by simpa using h.symm⟩
  · cases h

theorem whenReady_eq {s : State} {r : Regs} (h : s.Ready r) (k : Regs → State) :
    whenReady s k = .next (k r) := by
  simp [whenReady, h.2, whenConfigured_eq h.1]

/-- A guarded command answers a next state only from a ready state, and then its own. -/
theorem whenReady_next {s t : State} {k : Regs → State} (h : whenReady s k = .next t) :
    ∃ r, s.Ready r ∧ t = k r := by
  unfold whenReady at h
  split at h
  · obtain ⟨hv, rfl⟩ := whenConfigured_next h
    exact ⟨_, ⟨hv, ‹_›⟩, rfl⟩
  · split at h <;> cases h

theorem whenReady_before_reset {s : State} (hv : s.config.valid = true) (hr : s.regs = none)
    (k : Regs → State) : whenReady s k = .refused .beforeFirstReset := by
  simp [whenReady, hr, hv]

theorem whenReady_invalid {s : State} (hv : s.config.valid = false) (k : Regs → State) :
    whenReady s k = .refused .invalidConfiguration := by
  unfold whenReady
  split <;> simp [whenConfigured, hv]

/-- A reset step answers a next state only under a valid configuration, and then the reset registers. -/
theorem applyReset_next {s t : State} (h : applyReset s = .next t) :
    s.config.valid = true ∧ t = { s with regs := some Regs.reset, tickCount := 0 } :=
  whenConfigured_next h

end Sys2Proof.Machine
end

