-- ==== Sys2Proof/Laws/Exec.lean ====
section
/-! SUPPORT. What a command and a step can do, said once: every command is one guarded update of the state, and a step
is a reset or one such update. -/

namespace Sys2Proof.Machine

/-- The state a command leaves, given the registers it finds. -/
def effect : Instr → State → Regs → State
  | .nop, s, _ => s
  | .rsv3, s, _ => s
  | .rsv7, s, _ => s
  | .adv, s, r => (s.writePhase (advance s.config.delta r.phase)).countTick
  | .evl0, s, r => s.writeDuty .ch0 (evaluate s.config r.phase (offset .ch0))
  | .evl1, s, r => s.writeDuty .ch1 (evaluate s.config r.phase (offset .ch1))
  | .evl2, s, r => s.writeDuty .ch2 (evaluate s.config r.phase (offset .ch2))
  | .tick, s, r =>
    let p := advance s.config.delta r.phase
    ((((s.writePhase p).writeDuty .ch0 (evaluate s.config p (offset .ch0))).writeDuty .ch1
      (evaluate s.config p (offset .ch1))).writeDuty .ch2 (evaluate s.config p (offset .ch2))).countTick

/-- Every meaning stands behind the one guard. -/
theorem exec_eq_whenReady (i : Instr) (s : State) : exec i s = whenReady s (effect i s) := by
  cases i <;> rfl

/-- A command answers a next state exactly from a ready state, and then its effect. -/
theorem exec_next_iff {i : Instr} {s t : State} :
    exec i s = .next t ↔ ∃ r, s.Ready r ∧ t = effect i s r := by
  rw [exec_eq_whenReady]
  constructor
  · exact whenReady_next
  · rintro ⟨r, hr, rfl⟩
    exact whenReady_eq hr _

@[simp] theorem effect_config (i : Instr) (s : State) (r : Regs) : (effect i s r).config = s.config := by
  cases i <;> rfl

@[simp] theorem effect_inputs (i : Instr) (s : State) (r : Regs) : (effect i s r).inputs = s.inputs := by
  cases i <;> rfl

/-- The phase a command leaves: the one its evaluations use (R96, R100). -/
def phaseAfter (i : Instr) (s : State) (r : Regs) : Phase :=
  if advancesPhase i then advance s.config.delta r.phase else r.phase

/-- A command's events: one per channel it evaluates, in order, at the phase it leaves. -/
theorem effect_events (i : Instr) (s : State) (r : Regs) :
    (effect i s r).events =
      s.events ++ (channelsOf i).map fun c => ⟨c, evaluate s.config (phaseAfter i s r) (offset c)⟩ := by
  cases i <;> simp [effect, channelsOf, phaseAfter, advancesPhase]

@[simp] theorem eventsAt_nil (cfg : Config) (p : Phase) : eventsAt cfg p [] = [] := rfl

theorem eventsAt_cons (cfg : Config) (p : Phase) (i : Instr) (l : List Instr) :
    eventsAt cfg p (i :: l) =
      ((channelsOf i).map fun c => ⟨c, evaluate cfg p (offset c)⟩) ++ eventsAt cfg p l := by
  simp [eventsAt]

/-- A command keeps a ready state ready. -/
theorem effect_ready {s : State} {r : Regs} (h : s.Ready r) (i : Instr) :
    ∃ r', (effect i s r).Ready r' := by
  cases i <;> simp [State.Ready, effect, h.1, h.2]

theorem takeInput_ready {s : State} {r : Regs} : s.takeInput.Ready r ↔ s.Ready r := Iff.rfl

/-- What a step that answers a next state has done: a reset, or the presented command from a ready state. -/
theorem step_cases {s t : State} (h : step s = .next t) :
    (s.presented.rst = true ∧ s.config.valid = true ∧
      t = { s.takeInput with regs := some Regs.reset, tickCount := 0 }) ∨
    (s.presented.rst = false ∧ ∃ r, s.Ready r ∧ t = effect (decodeCmd s.presented.cmd) s.takeInput r) := by
  unfold step at h
  split at h
  case isTrue hr => exact .inl ⟨hr, applyReset_next h⟩
  case isFalse hn =>
    obtain ⟨r, hr, rfl⟩ := exec_next_iff.mp h
    exact .inr ⟨Bool.eq_false_of_not_eq_true hn, r, takeInput_ready.mp hr, rfl⟩

/-- From a ready state a step with `rst` = 0 answers the presented command's effect. -/
theorem step_of_ready {s : State} {r : Regs} (h : s.Ready r) (hr : s.presented.rst = false) :
    step s = .next (effect (decodeCmd s.presented.cmd) s.takeInput r) := by
  rw [step, hr]
  exact exec_next_iff.mpr ⟨r, takeInput_ready.mpr h, rfl⟩

/-- A run goes on from what its first step leaves. -/
theorem run_of_step_next {s t : State} (h : step s = .next t) (k : Nat) :
    Host.Core.run Sys2Proof.core (k + 1) s = Host.Core.run Sys2Proof.core k t :=
  have general (M : Host.Core) (s t : M.State) (h : M.step s = .next t) : M.run (k + 1) s = M.run k t := by
    simp [Host.Core.run, h]
  general Sys2Proof.core s t h

/-- A run stops where its first step is refused. -/
theorem run_of_step_refused {s : State} {q : Refusal} (h : step s = .refused q) (k : Nat) :
    Host.Core.run Sys2Proof.core (k + 1) s = .refused q :=
  have general (M : Host.Core) (s : M.State) (q : M.Refusal) (h : M.step s = .refused q) :
      M.run (k + 1) s = .refused q := by
    simp [Host.Core.run, h]
  general Sys2Proof.core s q h

end Sys2Proof.Machine
end

