-- ==== Sys2Proof/Laws/PerInstr.lean ====
section
/-! SUPPORT. A family of statements made per command: the decoder reads each command from the byte that carries its
word in its three low bits, as opcode_table.json numbers them. -/

namespace Sys2Proof.Laws.WordOfRow

/-- The row's word, read back from the row's byte, is the row's command. -/
def Statement (i : Instr) : Prop := decodeTableWord 8 (encode i).toNat = some i

theorem nop : Statement .nop := rfl
theorem adv : Statement .adv := rfl
theorem tick : Statement .tick := rfl
theorem rsv3 : Statement .rsv3 := rfl
theorem evl0 : Statement .evl0 := rfl
theorem evl1 : Statement .evl1 := rfl
theorem evl2 : Statement .evl2 := rfl
theorem rsv7 : Statement .rsv7 := rfl

end Sys2Proof.Laws.WordOfRow
end

