-- ==== Sys2Proof/Laws/Sine.lean ====
section
/-! SUPPORT. The sine at the multiples of π/32, between rational bounds: the yardstick for the table of R32. The values
follow the recurrence sin((k+2)x) = 2 cos(x) sin((k+1)x) - sin(kx) from rational values of cos(π/32) and sin(π/32). -/

namespace Sys2Proof.Laws

/-- cos(π/32) to 20 decimals. -/
def cosStep : ℚ := 99518472667219688624 / 10 ^ 20

/-- sin(π/32) to 20 decimals. -/
def sinStep : ℚ := 9801714032956060199 / 10 ^ 20

/-- A rational value near sin(kπ/32). -/
def sinNear : ℕ → ℚ
  | 0 => 0
  | 1 => sinStep
  | k + 2 => 2 * cosStep * sinNear (k + 1) - sinNear k

/-- How near it is. -/
def sinError : ℕ → ℚ
  | 0 => 0
  | 1 => 1 / 10 ^ 18
  | k + 2 => 2 * sinError (k + 1) + sinError k + 2 / 10 ^ 18

theorem sqrt_bracket {x y l u : ℝ} (hy : l ≤ y) (hy' : y ≤ u) (a b : ℝ) (hb : 0 ≤ b)
    (hx : √y = x) (hl : a ^ 2 ≤ l) (hu : u ≤ b ^ 2) : a ≤ x ∧ x ≤ b := by
  subst hx
  exact ⟨Real.le_sqrt_of_sq_le (hl.trans hy), Real.sqrt_le_iff.mpr ⟨hb, hy'.trans hu⟩⟩

/-- √(2 + √(2 + √2)) = 2 cos(π/16). -/
theorem nested_root_bracket :
    (19615705608064608982523 : ℝ) / 10 ^ 22 ≤ √(2 + √(2 + √2)) ∧
      √(2 + √(2 + √2)) ≤ 19615705608064608982525 / 10 ^ 22 := by
  obtain ⟨l1, u1⟩ := sqrt_bracket (le_refl (2 : ℝ)) le_rfl (14142135623730950488016 / 10 ^ 22)
    (14142135623730950488017 / 10 ^ 22) (by norm_num) rfl (by norm_num) (by norm_num)
  obtain ⟨l2, u2⟩ := sqrt_bracket (add_le_add_right l1 2) (add_le_add_right u1 2)
    (18477590650225735122562 / 10 ^ 22) (18477590650225735122564 / 10 ^ 22) (by norm_num)
    rfl (by norm_num) (by norm_num)
  exact sqrt_bracket (add_le_add_right l2 2) (add_le_add_right u2 2) _ _ (by norm_num)
    rfl (by norm_num) (by norm_num)

theorem cos_step : |Real.cos (Real.pi / 32) - cosStep| ≤ 1 / 10 ^ 18 := by
  obtain ⟨l, u⟩ := nested_root_bracket
  obtain ⟨l', u'⟩ := sqrt_bracket (add_le_add_right l 2) (add_le_add_right u 2)
    (19903694533443937724895 / 10 ^ 22) (19903694533443937724898 / 10 ^ 22) (by norm_num)
    rfl (by norm_num) (by norm_num)
  rw [Real.cos_pi_div_thirty_two, cosStep, abs_le]
  push_cast
  constructor <;> linarith

theorem sin_step : |Real.sin (Real.pi / 32) - sinStep| ≤ 1 / 10 ^ 18 := by
  obtain ⟨l, u⟩ := nested_root_bracket
  obtain ⟨l', u'⟩ := sqrt_bracket (sub_le_sub_left u 2) (sub_le_sub_left l 2)
    (1960342806591212039860 / 10 ^ 22) (1960342806591212039900 / 10 ^ 22) (by norm_num)
    rfl (by norm_num) (by norm_num)
  rw [Real.sin_pi_div_thirty_two, sinStep, abs_le]
  push_cast
  constructor <;> linarith

theorem sin_recurrence (x : ℝ) (k : ℕ) :
    Real.sin (((k + 2 : ℕ) : ℝ) * x) =
      2 * Real.cos x * Real.sin (((k + 1 : ℕ) : ℝ) * x) - Real.sin ((k : ℝ) * x) := by
  have hk : ((k + 2 : ℕ) : ℝ) * x = ((k + 1 : ℕ) : ℝ) * x + x := by push_cast; ring
  have hk' : (k : ℝ) * x = ((k + 1 : ℕ) : ℝ) * x - x := by push_cast; ring
  rw [hk, hk', Real.sin_add, Real.sin_sub]
  ring

/-- One step of the recurrence adds this much error. -/
theorem recurrence_error {c y x c₀ y₀ x₀ ε δ γ : ℝ} (hc : |c - c₀| ≤ ε) (hy : |y - y₀| ≤ δ)
    (hx : |x - x₀| ≤ γ) (h1 : |y| ≤ 1) (h0 : |c₀| ≤ 1) :
    |2 * c * y - x - (2 * c₀ * y₀ - x₀)| ≤ 2 * δ + γ + 2 * ε := by
  have split : 2 * c * y - x - (2 * c₀ * y₀ - x₀) = 2 * ((c - c₀) * y) + 2 * (c₀ * (y - y₀)) - (x - x₀) := by
    ring
  have a1 : |(c - c₀) * y| ≤ ε := by
    rw [abs_mul]
    nlinarith [abs_nonneg (c - c₀), abs_nonneg y]
  have a2 : |c₀ * (y - y₀)| ≤ δ := by
    rw [abs_mul]
    nlinarith [abs_nonneg (y - y₀), abs_nonneg c₀]
  rw [split, abs_le]
  rw [abs_le] at a1 a2 hx
  constructor <;> linarith [a1.1, a1.2, a2.1, a2.2, hx.1, hx.2]

/-- `sinNear k` is within `sinError k` of sin(kπ/32). -/
theorem sin_near : ∀ k : ℕ, |Real.sin ((k : ℝ) * (Real.pi / 32)) - sinNear k| ≤ sinError k
  | 0 => by simp [sinNear, sinError]
  | 1 => by simpa [sinNear, sinError] using sin_step
  | k + 2 => by
    rw [sin_recurrence, sinNear, sinError]
    push_cast
    have h := recurrence_error cos_step (sin_near (k + 1)) (sin_near k)
      (Real.abs_sin_le_one _) (by rw [cosStep]; norm_num)
    push_cast at h
    linarith

end Sys2Proof.Laws
end

