-- ==== Sys2Proof/Tests/Slice0.lean ====
section
/-! SUPPORT. The model's own tests. Expected results are the spec's: the opcode map (30_encoding.md R51) and the vectors
of 95_test_vectors.md, named in each section. The last section shows, for every statement with hypotheses, a concrete
state and operands that meet them together. -/

namespace Sys2Proof.Tests

open Sys2Proof.Machine

/-! ### Small states -/

/-- DELTA = 197, the default table. -/
def stateOf (r : Regs) (ins : List Input) : State :=
  { config := Config.worked, regs := some r, inputs := ins, events := [], tickCount := 0 }

/-- Written registers at a phase, as the vectors of section 2.5 show them. -/
def regsOf (p : Phase) (v0 v1 v2 : Duty) : Regs :=
  ⟨p, ⟨some v0, some v1, some v2⟩, ⟨true, true, true⟩⟩

/-- The registers and the events that an outcome leaves. -/
def leaves (o : Host.Outcome State Fault Refusal) (r : Regs) (evs : List Event) : Bool :=
  match o with
  | .next t => decide (t.regs = some r) && decide (t.events = evs)
  | .fault _ => false
  | .refused _ => false

/-- The refusal that an outcome is. -/
def refusedFor (o : Host.Outcome State Fault Refusal) (q : Refusal) : Bool :=
  match o with
  | .next _ => false
  | .fault _ => false
  | .refused q' => decide (q' = q)

/-! ### Decoding: each word of R51, bit by bit -/

theorem test_decode_nop : decodeTableWord 8 0b000 = some .nop := by decide
theorem test_decode_adv : decodeTableWord 8 0b001 = some .adv := by decide
theorem test_decode_tick : decodeTableWord 8 0b010 = some .tick := by decide
theorem test_decode_rsv3 : decodeTableWord 8 0b011 = some .rsv3 := by decide
theorem test_decode_evl0 : decodeTableWord 8 0b100 = some .evl0 := by decide
theorem test_decode_evl1 : decodeTableWord 8 0b101 = some .evl1 := by decide
theorem test_decode_evl2 : decodeTableWord 8 0b110 = some .evl2 := by decide
theorem test_decode_rsv7 : decodeTableWord 8 0b111 = some .rsv7 := by decide
theorem test_decode_rejects_bit3 :
    decodeBits 8 0b1010 = .error .notACommandWord ∧ decodeTableWord 8 0b1010 = none := by
  constructor <;> rfl

/-! ### Well-formedness: an ill-formed term for each check -/

theorem test_line_evl3_refused : (Line.evl 3#2).wellFormed = false := by decide
theorem test_rsv3_not_conforming : Instr.rsv3.conforming = false := by decide
theorem test_rsv7_not_conforming : Instr.rsv7.conforming = false := by decide
theorem test_run_without_reset_refused : beginsWithReset [⟨false, 0b010#3⟩] = false := by decide
theorem test_config_delta_zero_refused : (Config.mk 0#16 sineTable).valid = false := by decide
theorem test_config_minus_32768_refused :
    (Config.mk 197#16 (sineTable.set 5 0x8000#16)).valid = false := by decide
theorem test_config_entry0_refused :
    (Config.mk 197#16 (sineTable.set 0 1#16)).valid = false := by decide
theorem test_config_entry32_refused :
    (Config.mk 197#16 (sineTable.set 32 1#16)).valid = false := by decide
theorem test_config_worked_valid : Config.worked.valid = true := by decide

/-! ### Program text (R60, R61): program P5 up to its reset -/

theorem test_assemble :
    assemble [.rst, .tick, .rsv3, .nop, .rsv7, .evl 1#2] =
      some [⟨true, 0b000#3⟩, ⟨false, 0b010#3⟩, ⟨false, 0b011#3⟩, ⟨false, 0b000#3⟩, ⟨false, 0b111#3⟩,
        ⟨false, 0b101#3⟩] := by decide
theorem test_assemble_repeats :
    assemble [.tickTimes 2, .idleTimes 1] =
      some [⟨false, 0b010#3⟩, ⟨false, 0b010#3⟩, ⟨false, 0b000#3⟩] := by decide

/-! ### Configuration: section 2.1 -/

theorem test_delta_rows :
    [deltaOf 60 20000, deltaOf 50 20000, deltaOf 400 16000, deltaOf 5000 20000, deltaOf 3 8, deltaOf 1 3,
      deltaOf 1 131072, deltaOf 19999 20000, deltaOf 20000 20000, deltaOf 1 200000] =
      [197, 164, 1638, 16384, 24576, 21845, 1, 65533, 65536, 0] := by decide

/-! ### The datapath: sections 2.3 and 2.4, and the decimal listing of R32 -/

/-- The first column of R32's decimal table, rows 0..7, 24..31, 32..39 and 48..55. -/
theorem test_table_decimals :
    (List.range 8).map (fun i => (sineTable.toList.getD i 0#16).toInt) =
      [0, 3212, 6393, 9512, 12539, 15446, 18204, 20787] ∧
    (List.range 8).map (fun i => (sineTable.toList.getD (i + 24) 0#16).toInt) =
      [23170, 20787, 18204, 15446, 12539, 9512, 6393, 3212] ∧
    (List.range 8).map (fun i => (sineTable.toList.getD (i + 32) 0#16).toInt) =
      [0, -3212, -6393, -9512, -12539, -15446, -18204, -20787] ∧
    (List.range 8).map (fun i => (sineTable.toList.getD (i + 48) 0#16).toInt) =
      [-32767, -32609, -32137, -31356, -30273, -28898, -27245, -25329] := by decide

/-- Section 2.3: indices 8..15 and 40..47. -/
theorem test_scaled_column :
    (List.range 8).map (fun i => (scale (center (sineTable.toList.getD (i + 8) 0#16))).toNat) =
      [874, 907, 937, 963, 985, 1001, 1014, 1021] ∧
    (List.range 8).map (fun i => (scale (center (sineTable.toList.getD (i + 40) 0#16))).toNat) =
      [149, 116, 86, 60, 38, 22, 9, 2] := by decide

/-- The rescaler rows of section 2.4: the truncation corners. -/
theorem test_rescaler_corners :
    [-32767, -32766, -32704, -32703, -1, 0, 1, 32703, 32704, 32705, 32767].map
      (fun x : Int => (scale (center (BitVec.ofInt 16 x))).toNat) =
      [0, 0, 0, 1, 511, 511, 512, 1022, 1022, 1023, 1023] := by decide

/-- Section 2.4: an index edge, and wraps to 0x0000 on channels 1 and 2. -/
theorem test_evaluate_rows :
    [evaluate Config.worked 0x03FF#16 0x0000#16, evaluate Config.worked 0x0400#16 0x0000#16,
      evaluate Config.worked 0xC3FF#16 0x0000#16, evaluate Config.worked 0xC400#16 0x0000#16,
      evaluate Config.worked 0xAAAB#16 0x5555#16, evaluate Config.worked 0x5556#16 0xAAAA#16,
      evaluate Config.worked 0xEAAB#16 0x5555#16, evaluate Config.worked 0x1556#16 0xAAAA#16] =
      [511#10, 562#10, 0#10, 2#10, 511#10, 511#10, 1023#10, 0#10] := by decide

theorem test_split_rows :
    [511#10, 1023#10, 0#10, 963#10, 86#10].map (fun v => (coarse v, fine v)) =
      [(127#8, 3#2), (255#8, 3#2), (0#8, 0#2), (240#8, 3#2), (21#8, 2#2)] := by decide

/-! ### Commands: section 2.5 and programs P2, P5 -/

theorem test_nop_unchanged :
    leaves (exec .nop (stateOf (regsOf 197#16 511#10 963#10 86#10) [])) (regsOf 197#16 511#10 963#10 86#10) [] =
      true := by decide
theorem test_nop_keeps_unwritten :
    leaves (exec .nop (stateOf Regs.reset [])) Regs.reset [] = true := by decide
theorem test_rsv3_unchanged :
    leaves (exec .rsv3 (stateOf (regsOf 0x1234#16 511#10 963#10 86#10) [])) (regsOf 0x1234#16 511#10 963#10 86#10)
      [] = true := by decide
theorem test_rsv7_unchanged :
    leaves (exec .rsv7 (stateOf (regsOf 0x1234#16 511#10 963#10 86#10) [])) (regsOf 0x1234#16 511#10 963#10 86#10)
      [] = true := by decide
theorem test_adv_from_reset :
    leaves (exec .adv (stateOf Regs.reset [])) ⟨197#16, ⟨none, none, none⟩, ⟨false, false, false⟩⟩ [] = true := by
  decide
theorem test_adv_wraps :
    leaves (exec .adv (stateOf (regsOf 65404#16 461#10 963#10 86#10) [])) (regsOf 65#16 461#10 963#10 86#10) [] =
      true := by decide
theorem test_evl0_from_reset :
    leaves (exec .evl0 (stateOf Regs.reset [])) ⟨0#16, ⟨some 511#10, none, none⟩, ⟨true, false, false⟩⟩
      [⟨.ch0, 511#10⟩] = true := by decide
theorem test_evl0_peak :
    leaves (exec .evl0 (stateOf (regsOf 0x4000#16 0#10 0#10 0#10) [])) (regsOf 0x4000#16 1023#10 0#10 0#10)
      [⟨.ch0, 1023#10⟩] = true := by decide
theorem test_evl1_from_reset :
    leaves (exec .evl1 (stateOf Regs.reset [])) ⟨0#16, ⟨none, some 963#10, none⟩, ⟨false, true, false⟩⟩
      [⟨.ch1, 963#10⟩] = true := by decide
theorem test_evl1_same_value_is_an_event :
    leaves (exec .evl1 (stateOf (regsOf 197#16 511#10 963#10 86#10) [])) (regsOf 197#16 511#10 963#10 86#10)
      [⟨.ch1, 963#10⟩] = true := by decide
theorem test_evl2_from_reset :
    leaves (exec .evl2 (stateOf Regs.reset [])) ⟨0#16, ⟨none, none, some 86#10⟩, ⟨false, false, true⟩⟩
      [⟨.ch2, 86#10⟩] = true := by decide
theorem test_evl2_at_quarter :
    leaves (exec .evl2 (stateOf (regsOf 0x4000#16 1023#10 270#10 0#10) [])) (regsOf 0x4000#16 1023#10 270#10 227#10)
      [⟨.ch2, 227#10⟩] = true := by decide
theorem test_tick_second :
    leaves (exec .tick (stateOf (regsOf 197#16 511#10 963#10 86#10) [])) (regsOf 394#16 511#10 963#10 60#10)
      [⟨.ch0, 511#10⟩, ⟨.ch1, 963#10⟩, ⟨.ch2, 60#10⟩] = true := by decide
theorem test_tick_wraps :
    leaves (exec .tick (stateOf (regsOf 65404#16 461#10 963#10 86#10) [])) (regsOf 65#16 511#10 963#10 86#10)
      [⟨.ch0, 511#10⟩, ⟨.ch1, 963#10⟩, ⟨.ch2, 86#10⟩] = true := by decide

/-! ### Steps: reset wins, power-on, the placing of a command -/

theorem test_reset_ignores_tick_word :
    leaves (step (stateOf (regsOf 197#16 511#10 963#10 86#10) [⟨true, 0b010#3⟩])) Regs.reset [] = true := by decide
theorem test_power_on_reset :
    leaves (step (State.powerOn Config.worked [⟨true, 0b000#3⟩])) Regs.reset [] = true := by decide
theorem test_power_on_refuses_tick :
    refusedFor (step (State.powerOn Config.worked [⟨false, 0b010#3⟩])) .beforeFirstReset = true := by decide
theorem test_invalid_configuration_refused :
    refusedFor (step { State.reset with config := ⟨0#16, sineTable⟩ }) .invalidConfiguration = true := by decide
theorem test_fetch_word_runs_from_reset :
    leaves (step (State.reset.withFetchWord 8 2)) (regsOf 197#16 511#10 963#10 86#10)
      [⟨.ch0, 511#10⟩, ⟨.ch1, 963#10⟩, ⟨.ch2, 86#10⟩] = true := by decide
theorem test_idle_edge_is_nop : leaves (step State.reset) Regs.reset [] = true := by decide
theorem test_duty_we :
    [Input.mk false 0b010#3, ⟨false, 0b101#3⟩, ⟨true, 0b101#3⟩, ⟨false, 0b111#3⟩, ⟨false, 0b001#3⟩].map dutyWe =
      [0b111#3, 0b010#3, 0b000#3, 0b000#3, 0b000#3] := by decide

/-! ### Witnesses: every statement's hypotheses can be met together -/

/-- The state of program P1 after its step 1, about to take a TICK. -/
def afterTick : State :=
  { config := Config.worked
    regs := some (regsOf 197#16 511#10 963#10 86#10)
    inputs := [Instr.tick.toInput]
    events := [⟨.ch0, 511#10⟩, ⟨.ch1, 963#10⟩, ⟨.ch2, 86#10⟩]
    tickCount := 1 }

theorem afterTick_ready : afterTick.Ready (regsOf 197#16 511#10 963#10 86#10) := ⟨by decide, rfl⟩

/-- A step from it has an answer. -/
theorem afterTick_steps : ∃ t, step afterTick = .next t :=
  ⟨_, step_of_ready afterTick_ready rfl⟩

/-- A reset step from it has an answer. -/
theorem afterTick_resets :
    ∃ s t : State, s.presented.rst = true ∧ step s = .next t :=
  ⟨afterTick.present ⟨true, 0b010#3⟩, _, rfl, whenConfigured_eq afterTick_ready.1⟩

theorem witness_ThreeBitsOnly :
    (3 ≤ 8 ∧ 7 < 2 ^ 8 ∧ 7 < 8) ∧ (3 ≤ 8 ∧ 8 < 2 ^ 8 ∧ 8 ≤ 8) := by decide
theorem witness_EvlOperand : (0#2 ≠ 3#2) ∧ (2#2 ≠ 3#2) := by decide
theorem witness_DeltaFormula :
    0 < 20000 ∧ Config.ofFrequencies 60 20000 sineTable = .ok Config.worked := ⟨by decide, rfl⟩
/-- One pair per clause at its boundary: rounding reaches 65536 from below with F_DESIRED < F_UPDATE. -/
theorem witness_FrequencyBounds :
    (0 < 131071 ∧ 0 < 131072 ∧ 131071 < 131072 ∧ 65536 ≤ deltaOf 131071 131072) ∧
    (0 < 1 ∧ 0 < 131073 ∧ deltaOf 1 131073 = 0) ∧
    (0 < 20000 ∧ 20000 ≤ 20000) ∧
    (0 < 1 ∧ 0 < 131073 ∧ 1 * 131072 < 131073) := by decide
theorem witness_ValidConfiguration :
    Config.worked.valid = true ∧ (Config.mk 65535#16 sineTable).valid = true ∧
      (Config.mk 0#16 sineTable).valid = false := by decide
theorem witness_AdvanceFormula :
    (0xFFFF#16 ≠ 0#16 ∧ 1#16 ≠ 0#16) ∧ (0xFFFE#16).toNat + (1#16).toNat < 65536 ∧
      65536 ≤ (0xFFFF#16).toNat + (1#16).toNat := by decide
theorem witness_FirstWrap : 0 ≤ 332 ∧ 332 ≤ 332 := by decide
theorem witness_ChannelSeparation :
    ((Channel.ch0 = Channel.ch0 ∧ Channel.ch1 = Channel.ch1) ∨ (Channel.ch0 = Channel.ch1 ∧ Channel.ch1 = Channel.ch2)) ∧
    ((Channel.ch1 = Channel.ch0 ∧ Channel.ch2 = Channel.ch1) ∨ (Channel.ch1 = Channel.ch1 ∧ Channel.ch2 = Channel.ch2)) := by
  decide
theorem witness_RescaleExact :
    (-32767 ≤ (0x8001#16).toInt ∧ (0x8001#16).toInt ≤ 32767) ∧
      (-32767 ≤ (0x7FFF#16).toInt ∧ (0x7FFF#16).toInt ≤ 32767) := by decide
theorem witness_TableRead :
    Config.worked.valid = true ∧ (Config.mk 1#16 sineTable).table = Config.worked.table := ⟨by decide, rfl⟩
theorem witness_EvaluateExact :
    Config.worked.valid = true ∧
      ((0#16).toNat + (0#16).toNat) % 65536 / 1024 = ((0x03FF#16).toNat + (0#16).toNat) % 65536 / 1024 := by decide
theorem witness_DutyRange :
    Config.worked.valid = true ∧ tableIndex (samplePhase 0xC000#16 0#16) = 48#6 ∧
      tableIndex (samplePhase 0xC3FF#16 0#16) = 48#6 ∧ tableIndex (samplePhase 0x4000#16 0#16) = 16#6 ∧
      tableIndex (samplePhase 0x43FF#16 0#16) = 16#6 ∧ tableIndex (samplePhase 0x03FF#16 0#16) = 0#6 ∧
      tableIndex (samplePhase 0x8000#16 0#16) = 32#6 := by decide
theorem witness_ResetStep :
    ∃ s : State, s.config.valid = true ∧ s.inputs = ⟨true, 0b111#3⟩ :: [Instr.tick.toInput] :=
  ⟨stateOf (regsOf 197#16 511#10 963#10 86#10) [⟨true, 0b111#3⟩, Instr.tick.toInput], by decide, rfl⟩
theorem witness_ResetHeld :
    (∃ s : State, s.config.valid = true ∧
      s.inputs = ([0b010#3, 0b011#3] : List CmdWord).map (fun x => Input.mk true x) ++ []) ∧
    ∃ s : State, s.config.valid = true ∧
      s.inputs = ([0b000#3] : List CmdWord).map (fun x => Input.mk true x) ++ ⟨false, 0b010#3⟩ :: [] :=
  ⟨⟨State.powerOn Config.worked [⟨true, 0b010#3⟩, ⟨true, 0b011#3⟩], by decide, rfl⟩,
    State.powerOn Config.worked [⟨true, 0b000#3⟩, ⟨false, 0b010#3⟩], by decide, rfl⟩
theorem witness_BeforeFirstReset :
    (∃ s : State, s.config.valid = true ∧ s.regs = none ∧ s.presented.rst = false) ∧
      beginsWithReset [] = false ∧ beginsWithReset [⟨false, 0b010#3⟩] = false ∧
      beginsWithReset [⟨true, 0b000#3⟩, ⟨false, 0b010#3⟩] = true :=
  ⟨⟨State.powerOn Config.worked [], by decide, rfl, rfl⟩, rfl, rfl, rfl⟩
theorem witness_InvalidConfigurationRefused :
    ∃ s : State, s.config.valid = false := ⟨{ State.reset with config := ⟨0#16, sineTable⟩ }, by decide⟩
theorem witness_StepRunsCommand :
    (∃ s : State, s.inputs = ⟨false, 0b111#3⟩ :: []) ∧ (∃ s : State, s.inputs = Instr.evl2.toInput :: []) ∧
      (∃ s : State, s.inputs = []) :=
  ⟨⟨State.reset.present ⟨false, 0b111#3⟩, rfl⟩, ⟨State.reset.present Instr.evl2.toInput, rfl⟩, State.reset, rfl⟩
theorem witness_NopAndReserved : afterTick.Ready (regsOf 197#16 511#10 963#10 86#10) := afterTick_ready
theorem witness_AdvEffect : (stateOf (regsOf 65404#16 461#10 963#10 86#10) []).Ready
    (regsOf 65404#16 461#10 963#10 86#10) := ⟨by decide, rfl⟩
theorem witness_EvlEffect : State.reset.Ready Regs.reset := ⟨by decide, rfl⟩
theorem witness_TickEffect : State.reset.Ready Regs.reset := ⟨by decide, rfl⟩
theorem witness_EvaluationOrderFree :
    afterTick.Ready (regsOf 197#16 511#10 963#10 86#10) ∧ Channel.ch2 ≠ Channel.ch0 ∧ Channel.ch0 ≠ Channel.ch1 ∧
      Channel.ch2 ≠ Channel.ch1 := ⟨afterTick_ready, by decide, by decide, by decide⟩
theorem witness_EvlIdempotent : afterTick.Ready (regsOf 197#16 511#10 963#10 86#10) := afterTick_ready
theorem witness_FirstEvaluation :
    State.reset.Ready Regs.reset ∧ State.reset.config.table = sineTable ∧ Channel.ch1 ≠ Channel.ch0 :=
  ⟨⟨by decide, rfl⟩, rfl, by decide⟩
theorem witness_EveryCommandCompletes : afterTick.Ready (regsOf 197#16 511#10 963#10 86#10) := afterTick_ready
theorem witness_NoRunEnds : afterTick.Ready (regsOf 197#16 511#10 963#10 86#10) := afterTick_ready
theorem witness_ConfigurationKept : ∃ s t, step s = .next t := ⟨_, afterTick_steps⟩
theorem witness_PhaseWriters :
    ∃ t r, step afterTick = .next t ∧ afterTick.regs = some r ∧ afterTick.presented.rst = false :=
  afterTick_steps.elim fun t h => ⟨t, _, h, rfl, rfl⟩
theorem witness_DutyWriters :
    ∃ t r, step afterTick = .next t ∧ afterTick.regs = some r ∧ afterTick.presented.rst = false :=
  witness_PhaseWriters
theorem witness_ValidWriters :
    (∃ t r, step afterTick = .next t ∧ afterTick.regs = some r ∧ afterTick.presented.rst = false) ∧
      ∃ s t : State, s.presented.rst = true ∧ step s = .next t := ⟨witness_PhaseWriters, afterTick_resets⟩
theorem witness_GhostCount : ∃ s t, step s = .next t := ⟨_, afterTick_steps⟩
theorem witness_OneInputPerStep : ∃ s t, step s = .next t := ⟨_, afterTick_steps⟩
theorem witness_EventsFollowStrobe : ∃ s t, step s = .next t := ⟨_, afterTick_steps⟩
theorem witness_DutyNeverRead :
    afterTick.Ready (regsOf 197#16 511#10 963#10 86#10) ∧ Channel.ch1 ∈ channelsOf .evl1 ∧
      Channel.ch0 ∉ channelsOf .evl1 := ⟨afterTick_ready, by decide, by decide⟩
theorem witness_StepDependsOnRegistersAndPorts :
    ∃ s s' t : State, s'.config = s.config ∧ s'.regs = s.regs ∧ s'.presented = s.presented ∧ step s = .next t ∧
      s' ≠ s :=
  afterTick_steps.elim fun t h =>
    ⟨afterTick, { afterTick with events := [], tickCount := 7 }, t, rfl, rfl, rfl, h, by decide⟩
theorem witness_PhaseClosedFormKept : ∃ t, PhaseInv afterTick ∧ step afterTick = .next t :=
  afterTick_steps.elim fun t h => ⟨t, fun _ hr => by cases hr; rfl, h⟩
theorem witness_ValidMeansWrittenKept : ∃ t, ValidInv afterTick ∧ step afterTick = .next t :=
  afterTick_steps.elim fun t h => ⟨t, fun _ hr c => by cases hr; cases c <;> rfl, h⟩
theorem witness_DutyIsLastSinkValueKept : ∃ t, SinkInv afterTick ∧ step afterTick = .next t :=
  afterTick_steps.elim fun t h => ⟨t, fun _ c _ hr hd => by cases hr; cases c <;> cases hd <;> decide, h⟩
theorem witness_DutyIsEvaluationKept :
    ∃ t, PhaseInv afterTick ∧ DutyInv afterTick ∧ step afterTick = .next t :=
  afterTick_steps.elim fun t h =>
    ⟨t, fun _ hr => by cases hr; rfl,
      fun _ c _ hr hd => ⟨1, by decide, by cases hr; cases c <;> cases hd <;> decide⟩, h⟩
theorem witness_PhaseAfterRun :
    ∃ s : State, s.config.valid = true ∧
      s.inputs = ⟨true, 0b010#3⟩ :: ([Instr.adv, .evl0, .rsv3, .tick].map Instr.toInput ++ [Input.idle]) :=
  ⟨State.powerOn Config.worked (⟨true, 0b010#3⟩ :: ([Instr.adv, .evl0, .rsv3, .tick].map Instr.toInput ++ [Input.idle])),
    by decide, rfl⟩
theorem witness_WellFormedTickEffect :
    wellFormedTick [.nop, .tick, .nop] = true ∧
    ∃ s : State, s.Ready Regs.reset ∧ wellFormedTick [.nop, .adv, .evl2, .nop, .evl0, .evl1, .evl1] = true ∧
      s.inputs = [Instr.nop, .adv, .evl2, .nop, .evl0, .evl1, .evl1].map Instr.toInput ++ [] :=
  ⟨by decide, stateOf Regs.reset ([Instr.nop, .adv, .evl2, .nop, .evl0, .evl1, .evl1].map Instr.toInput ++ []),
    ⟨by decide, rfl⟩, by decide, rfl⟩
theorem witness_WellFormedRunEffect :
    ∃ s : State, s.config.valid = true ∧ (∀ l ∈ [[Instr.tick], [.nop, .tick]], wellFormedTick l = true) ∧
      wellFormedTick [.adv, .evl1, .evl0, .evl2] = true ∧
      s.inputs = ⟨true, 0b000#3⟩ :: ([[Instr.tick], [.nop, .tick]].flatten.map Instr.toInput ++
        ([Instr.adv, .evl1, .evl0, .evl2].map Instr.toInput ++ [])) :=
  ⟨State.powerOn Config.worked (⟨true, 0b000#3⟩ :: ([[Instr.tick], [.nop, .tick]].flatten.map Instr.toInput ++
      ([Instr.adv, .evl1, .evl0, .evl2].map Instr.toInput ++ []))), by decide, by decide, by decide, rfl⟩
theorem witness_PortsShowRegisters :
    (∃ r, State.reset.regs = some r ∧ r.duty.get .ch0 = none) ∧
      ∃ r, afterTick.regs = some r ∧ r.duty.get .ch1 = some 963#10 := ⟨⟨_, rfl, rfl⟩, _, rfl, rfl⟩
theorem witness_UnwrittenPorts :
    (∃ s t : State, s.presented.rst = true ∧ step s = .next t) ∧ ValidInv afterTick ∧ ValidInv State.reset :=
  ⟨afterTick_resets, fun _ hr c => by cases hr; cases c <;> rfl, fun _ hr c => by cases hr; cases c <;> rfl⟩
theorem witness_ProtocolViolations :
    afterTick.Ready (regsOf 197#16 511#10 963#10 86#10) ∧ Channel.ch0 ≠ Channel.ch1 := ⟨afterTick_ready, by decide⟩

end Sys2Proof.Tests
end

section
/-! SUPPORT. DELTA from two frequencies and the configurations it makes (R5, R9), what a valid configuration is (R9,
R31), and what an invalid one forbids; then the obligations on them. -/

namespace Sys2Proof.Machine

/-! ### DELTA -/

theorem le_deltaOf_iff {fDesired fUpdate : Nat} (hu : 0 < fUpdate) (k : Nat) :
    k ≤ deltaOf fDesired fUpdate ↔ k * (2 * fUpdate) ≤ 2 * fDesired * 65536 + fUpdate :=
  Nat.le_div_iff_mul_le (by omega)

theorem deltaOf_lt_iff {fDesired fUpdate : Nat} (hu : 0 < fUpdate) (k : Nat) :
    deltaOf fDesired fUpdate < k ↔ 2 * fDesired * 65536 + fUpdate < k * (2 * fUpdate) :=
  Nat.div_lt_iff_lt_mul (by omega)

/-- The integer division rounds half up: its quotient is the exact one plus one half (D6). -/
theorem deltaOf_eq_floor (fDesired : Nat) {fUpdate : Nat} (hu : 0 < fUpdate) :
    (deltaOf fDesired fUpdate : ℤ) = ⌊(fDesired : ℚ) * 65536 / (fUpdate : ℚ) + 1 / 2⌋ := by
  have hne : (fUpdate : ℚ) ≠ 0 := by positivity
  have quotient : (fDesired : ℚ) * 65536 / (fUpdate : ℚ) + 1 / 2 =
      ((2 * fDesired * 65536 + fUpdate : ℕ) : ℚ) / ((2 * fUpdate : ℕ) : ℚ) := by
    push_cast
    field_simp
  rw [quotient]
  exact (Rat.floor_natCast_div_natCast _ _).symm

/-! ### Configurations from two frequencies -/

theorem ofFrequencies_deltaZero {fDesired fUpdate : Nat} (hd : 0 < fDesired) (hu : 0 < fUpdate)
    (h : deltaOf fDesired fUpdate = 0) (t : SineTable) :
    Config.ofFrequencies fDesired fUpdate t = .error .deltaZero := by
  simp [Config.ofFrequencies, hd.ne', hu.ne', h]

theorem ofFrequencies_deltaTooLarge {fDesired fUpdate : Nat} (hd : 0 < fDesired) (hu : 0 < fUpdate)
    (h : 65536 ≤ deltaOf fDesired fUpdate) (t : SineTable) :
    Config.ofFrequencies fDesired fUpdate t = .error .deltaTooLarge := by
  have hne : deltaOf fDesired fUpdate ≠ 0 := by omega
  simp [Config.ofFrequencies, hd.ne', hu.ne', hne, h]

/-- A pair of frequencies and a table are accepted only where R9 and R31 allow them. -/
theorem ofFrequencies_ok {fDesired fUpdate : Nat} {t : SineTable} {cfg : Config}
    (h : Config.ofFrequencies fDesired fUpdate t = .ok cfg) :
    deltaOf fDesired fUpdate ≠ 0 ∧ deltaOf fDesired fUpdate < 65536 ∧ tableAdmissible t = true ∧
      cfg = ⟨BitVec.ofNat 16 (deltaOf fDesired fUpdate), t⟩ := by
  unfold Config.ofFrequencies at h
  split_ifs at h with _ hzero hlarge htable
  obtain rfl := Except.ok.inj h
  exact ⟨hzero, not_le.mp hlarge, by simpa using htable, rfl⟩

/-! ### Valid configurations -/

theorem delta_ne_zero_iff (d : Phase) : d ≠ 0#16 ↔ 0 < d.toNat := by
  rw [Nat.pos_iff_ne_zero, ne_eq, ← BitVec.toNat_inj, BitVec.toNat_zero]

theorem tableAdmissible_iff (t : SineTable) :
    tableAdmissible t = true ↔
      (∀ i : Fin 64, -32767 ≤ t[i].toInt ∧ t[i].toInt ≤ 32767) ∧ t[0].toInt = 0 ∧ t[32].toInt = 0 := by
  have range : t.toList.all sampleAdmissible = true ↔
      ∀ i : Fin 64, -32767 ≤ t[i].toInt ∧ t[i].toInt ≤ 32767 := by
    simp only [List.all_eq_true, Vector.mem_toList_iff, Vector.forall_mem_iff_forall_getElem,
      sampleAdmissible_iff]
    exact ⟨fun h i => h i i.isLt, fun h i hi => h ⟨i, hi⟩⟩
  have zero_word (w : Sample) : (w == 0#16) = true ↔ w.toInt = 0 := by
    rw [beq_iff_eq, ← BitVec.toInt_inj, BitVec.toInt_zero]
  rw [tableAdmissible, Bool.and_eq_true, Bool.and_eq_true, range, zero_word, zero_word, and_assoc]

theorem config_valid_iff (cfg : Config) :
    cfg.valid = true ↔ 0 < cfg.delta.toNat ∧ tableAdmissible cfg.table = true := by
  rw [Config.valid, Bool.and_eq_true, bne_iff_ne, delta_ne_zero_iff]

theorem ofFrequencies_ok_valid {fDesired fUpdate : Nat} {t : SineTable} {cfg : Config}
    (h : Config.ofFrequencies fDesired fUpdate t = .ok cfg) :
    cfg.valid = true ∧ cfg.table = t ∧ cfg.delta.toNat = deltaOf fDesired fUpdate := by
  obtain ⟨hzero, hlarge, htable, rfl⟩ := ofFrequencies_ok h
  have hdelta : (BitVec.ofNat 16 (deltaOf fDesired fUpdate)).toNat = deltaOf fDesired fUpdate :=
    (BitVec.toNat_ofNat _ _).trans (Nat.mod_eq_of_lt hlarge)
  have hpos : 0 < (BitVec.ofNat 16 (deltaOf fDesired fUpdate)).toNat :=
    (Nat.pos_of_ne_zero hzero).trans_eq hdelta.symm
  exact ⟨(config_valid_iff _).mpr ⟨hpos, htable⟩, rfl, hdelta⟩

/-! ### An invalid configuration -/

theorem exec_invalid {s : State} (h : s.config.valid = false) (i : Instr) :
    exec i s = .refused .invalidConfiguration := by
  rw [exec_eq_whenReady]
  exact whenReady_invalid h _

theorem applyReset_invalid {s : State} (h : s.config.valid = false) :
    applyReset s = .refused .invalidConfiguration := by
  simp [applyReset, whenConfigured, h]

theorem step_invalid {s : State} (h : s.config.valid = false) :
    step s = .refused .invalidConfiguration := by
  unfold step
  split
  case isTrue => exact applyReset_invalid (s := s.takeInput) h
  case isFalse => exact exec_invalid (s := s.takeInput) h _

/-! ### The obligations -/

/-- Settles O5: the integer division is the floor of the exact quotient plus one half, and an accepted pair has passed
the guards of R9 and R31. -/
theorem deltaFormula : Obligations.DeltaFormula :=
  ⟨fun fd _ hu => deltaOf_eq_floor fd hu, rfl, fun _ _ _ _ h => ofFrequencies_ok_valid h⟩

/-- Settles O6: each guard refuses by its own name, and the two sufficient conditions follow by clearing the
denominator of DELTA. -/
theorem frequencyBounds : Obligations.FrequencyBounds := by
  intro fd fu t hd hu
  refine ⟨fun h => ofFrequencies_deltaTooLarge hd hu h t, fun h => ofFrequencies_deltaZero hd hu h t,
    fun hle => ?_, fun hlt => ?_⟩
  · exact (le_deltaOf_iff hu 65536).mpr (by omega)
  · exact Nat.lt_one_iff.mp ((deltaOf_lt_iff hu 1).mpr (by linarith))

/-- Settles O8: DELTA < 65536 is the width of the register, and the bits of `Config.valid` are the other clauses. -/
theorem validConfiguration : Obligations.ValidConfiguration := by
  intro cfg
  rw [config_valid_iff, tableAdmissible_iff]
  exact ⟨fun ⟨hdelta, htable⟩ => ⟨hdelta, cfg.delta.isLt, htable⟩,
    fun ⟨hdelta, _, htable⟩ => ⟨hdelta, htable⟩⟩

/-- Settles O26: every command stands behind the one guard, and a reset step behind its own. -/
theorem invalidConfigurationRefused : Obligations.InvalidConfigurationRefused :=
  fun _ h => ⟨exec_invalid h, step_invalid h⟩

/-- Settles O7: each constant is defined as the literal the spec lists, and the relations are closed arithmetic. -/
theorem namedConstants : Obligations.NamedConstants :=
  ⟨rfl, rfl, rfl, rfl, rfl, rfl, rfl, rfl, rfl, rfl, rfl, rfl, rfl, rfl⟩

end Sys2Proof.Machine
end

section
/-! SUPPORT. What the family of 10_state.md rests on: which words advance and which write, the registers and the ghost
count a command leaves, the reset registers, the ports, and the last value of a channel in the event history. -/

namespace Sys2Proof.Machine

/-! ### Words -/

theorem decodeCmd_encode (i : Instr) : decodeCmd (encode i) = i := by
  cases i <;> rfl

/-- The words that advance the phase are those of ADV and TICK (R51, R23). -/
theorem advancesPhase_decodeCmd (w : CmdWord) :
    advancesPhase (decodeCmd w) = true ↔ w = 0b001#3 ∨ w = 0b010#3 := by
  revert w
  decide

/-- The words that evaluate channel c are those of TICK and EVL c (R51, R52). -/
theorem mem_channelsOf_decodeCmd (c : Channel) (w : CmdWord) :
    c ∈ channelsOf (decodeCmd w) ↔ w = 0b010#3 ∨ w = 0b100#3 + BitVec.ofNat 3 (channelNumber c) := by
  cases c <;> revert w <;> decide

theorem strobeBit_getLsbD (c d : Channel) :
    (strobeBit c).getLsbD (channelNumber d) = decide (d = c) := by
  cases c <;> cases d <;> rfl

/-- Joining strobe bits adds exactly the bits of the channels joined. -/
theorem foldl_strobeBit_getLsbD (d : Channel) (l : List Channel) (w : BitVec 3) :
    (l.foldl (fun w c => w ||| strobeBit c) w).getLsbD (channelNumber d) =
      (w.getLsbD (channelNumber d) || decide (d ∈ l)) := by
  induction l generalizing w with
  | nil => simp
  | cons c cs ih => simp [ih, strobeBit_getLsbD, Bool.or_assoc]

/-- A bit of the strobe says that its channel is evaluated and `rst` is 0 (R19). -/
theorem dutyWe_getLsbD (i : Input) (c : Channel) :
    (dutyWe i).getLsbD (channelNumber c) = true ↔ i.rst = false ∧ c ∈ channelsOf (decodeCmd i.cmd) := by
  cases h : i.rst <;> simp [dutyWe, h, foldl_strobeBit_getLsbD]

/-! ### What a command leaves -/

/-- The registers a command leaves: the phase first, then one duty write per channel it evaluates, at that phase. -/
def regsAfter (i : Instr) (s : State) (r : Regs) : Regs :=
  (channelsOf i).foldl (fun q c => q.writeDuty c (evaluate s.config q.phase (offset c)))
    { r with phase := phaseAfter i s r }

theorem effect_regs {s : State} {r : Regs} (h : s.regs = some r) (i : Instr) :
    (effect i s r).regs = some (regsAfter i s r) := by
  cases i <;> simp [effect, regsAfter, channelsOf, phaseAfter, advancesPhase, h]

@[simp] theorem regsAfter_phase (i : Instr) (s : State) (r : Regs) :
    (regsAfter i s r).phase = phaseAfter i s r := by
  cases i <;> rfl

theorem regsAfter_duty (i : Instr) (s : State) (r : Regs) (c : Channel) :
    (regsAfter i s r).duty.get c =
      if c ∈ channelsOf i then some (evaluate s.config (phaseAfter i s r) (offset c)) else r.duty.get c := by
  cases i <;> cases c <;> rfl

theorem regsAfter_valid (i : Instr) (s : State) (r : Regs) (c : Channel) :
    (regsAfter i s r).valid.get c = if c ∈ channelsOf i then true else r.valid.get c := by
  cases i <;> cases c <;> rfl

theorem phaseAfter_congr {s s' : State} {r r' : Regs} (hc : s'.config = s.config) (hp : r'.phase = r.phase)
    (i : Instr) : phaseAfter i s' r' = phaseAfter i s r := by
  rw [phaseAfter, phaseAfter, hc, hp]

theorem regsAfter_congr {s s' : State} (h : s'.config = s.config) (i : Instr) (r : Regs) :
    regsAfter i s' r = regsAfter i s r := by
  rw [regsAfter, regsAfter, phaseAfter_congr h rfl, h]

theorem effect_tickCount (i : Instr) (s : State) (r : Regs) :
    (effect i s r).tickCount = if advancesPhase i then s.tickCount + 1 else s.tickCount := by
  cases i <;> rfl

/-- Under the closed form the phase a command leaves is the closed form at the count it leaves (R73). -/
theorem phaseAfter_closedForm {s : State} {r : Regs} (h : PhaseInv s) (hr : s.regs = some r) (i : Instr) :
    phaseAfter i s r = BitVec.ofNat 16 ((effect i s r).tickCount * s.config.delta.toNat) := by
  have hphase := h r hr
  rw [effect_tickCount, ← BitVec.toNat_inj, BitVec.toNat_ofNat, phaseAfter]
  split
  case isTrue => rw [advance_toNat, hphase, Nat.mod_add_mod, Nat.succ_mul]
  case isFalse => exact hphase

theorem exec_of_ready {s : State} {r : Regs} (h : s.Ready r) (i : Instr) : exec i s = .next (effect i s r) :=
  exec_next_iff.mpr ⟨r, h, rfl⟩

/-! ### What a step leaves -/

/-- A reset step under a valid configuration (R130). -/
theorem step_of_reset {s : State} (hv : s.config.valid = true) (hr : s.presented.rst = true) :
    step s = .next { s.takeInput with regs := some Regs.reset, tickCount := 0 } := by
  rw [step, hr]
  exact whenConfigured_eq (s := s.takeInput) hv

/-- A step with `rst` = 0 that answers, from registers `r`, has run the presented command on them. -/
theorem step_command {s t : State} {r : Regs} (h : step s = .next t) (hr : s.regs = some r)
    (hn : s.presented.rst = false) : t = effect (decodeCmd s.presented.cmd) s.takeInput r := by
  obtain ⟨hrst, _⟩ | ⟨_, r', ⟨_, hr'⟩, rfl⟩ := step_cases h
  · simp [hn] at hrst
  · rw [Option.some.inj (hr.symm.trans hr')]

/-- The registers such a step leaves. -/
theorem step_command_regs {s t : State} {r : Regs} (h : step s = .next t) (hr : s.regs = some r)
    (hn : s.presented.rst = false) : t.regs = some (regsAfter (decodeCmd s.presented.cmd) s r) := by
  rw [step_command h hr hn]
  exact effect_regs (s := s.takeInput) hr _

/-- The step at an input with `rst` = 0 is that command, on the state without the input. -/
theorem step_of_cons {s : State} {w : CmdWord} {rest : List Input} (h : s.inputs = ⟨false, w⟩ :: rest) :
    step s = exec (decodeCmd w) { s with inputs := rest } := by
  simp [step, presented_of_cons h, takeInput_of_cons h]

theorem takeInput_of_nil {s : State} (h : s.inputs = []) : s.takeInput = s := by
  cases s
  cases h
  rfl

theorem wordOfRow : ∀ i : Instr, Laws.WordOfRow.Statement i
  | .nop => Laws.WordOfRow.nop
  | .adv => Laws.WordOfRow.adv
  | .tick => Laws.WordOfRow.tick
  | .rsv3 => Laws.WordOfRow.rsv3
  | .evl0 => Laws.WordOfRow.evl0
  | .evl1 => Laws.WordOfRow.evl1
  | .evl2 => Laws.WordOfRow.evl2
  | .rsv7 => Laws.WordOfRow.rsv7

theorem withFetchWord_encode (s : State) (i : Instr) :
    s.withFetchWord 8 (encode i).toNat = s.present i.toInput := by
  have word : decodeTableWord 8 (encode i).toNat = some i := wordOfRow i
  rw [State.withFetchWord, word]

/-! ### The reset registers and the power-on state -/

@[simp] theorem regs_reset_duty (c : Channel) : Regs.reset.duty.get c = none := by
  cases c <;> rfl

@[simp] theorem regs_reset_valid (c : Channel) : Regs.reset.valid.get c = false := by
  cases c <;> rfl

section
variable {s : State}

theorem phaseInv_of_reset (h : s.regs = some Regs.reset) (hn : s.tickCount = 0) : PhaseInv s := by
  intro r hr
  obtain rfl := Option.some.inj (h.symm.trans hr)
  simp [hn, Regs.reset]

theorem validInv_of_reset (h : s.regs = some Regs.reset) : ValidInv s := by
  intro r hr c
  obtain rfl := Option.some.inj (h.symm.trans hr)
  simp

theorem sinkInv_of_reset (h : s.regs = some Regs.reset) : SinkInv s := by
  intro r c v hr hd
  obtain rfl := Option.some.inj (h.symm.trans hr)
  simp at hd

theorem dutyInv_of_reset (h : s.regs = some Regs.reset) : DutyInv s := by
  intro r c v hr hd
  obtain rfl := Option.some.inj (h.symm.trans hr)
  simp at hd

/-- The invariants speak of registers, so they hold while there are none (R131). -/
theorem invariants_of_no_regs (h : s.regs = none) : PhaseInv s ∧ ValidInv s ∧ SinkInv s ∧ DutyInv s := by
  simp [PhaseInv, ValidInv, SinkInv, DutyInv, h]

end

/-! ### The ports -/

theorem phasePort_of_regs {s : State} {r : Regs} (h : s.regs = some r) : s.phasePort = some r.phase := by
  simp [State.phasePort, h]

theorem dutyPort_of_regs {s : State} {r : Regs} (h : s.regs = some r) (c : Channel) :
    s.dutyPort c = r.duty.get c := by
  simp [State.dutyPort, h]

theorem validPort_of_regs {s : State} {r : Regs} (h : s.regs = some r) (c : Channel) :
    s.validPort c = some (r.valid.get c) := by
  simp [State.validPort, h]

theorem coarsePort_isSome (s : State) (c : Channel) : (s.coarsePort c).isSome = (s.dutyPort c).isSome :=
  Option.isSome_map

theorem finePort_isSome (s : State) (c : Channel) : (s.finePort c).isSome = (s.dutyPort c).isSome :=
  Option.isSome_map

/-- Where VALID means written, a valid port shows 1 exactly while the duty port carries a value. -/
theorem validPort_iff_dutyPort {s : State} (h : ValidInv s) (c : Channel) :
    (s.dutyPort c).isSome = true ↔ s.validPort c = some true := by
  cases hr : s.regs with
  | none => simp [State.dutyPort, State.validPort, hr]
  | some r => rw [dutyPort_of_regs hr, validPort_of_regs hr, h r hr c, Option.some_inj]

theorem coarse_eq_extract (v : Duty) : coarse v = v.extractLsb' 2 8 :=
  BitVec.setWidth_ushiftRight_eq_extractLsb

theorem fine_eq_extract (v : Duty) : fine v = v.extractLsb' 0 2 := by
  rw [fine, BitVec.setWidth_and]
  exact BitVec.and_allOnes

/-- The two fields are adjacent and cover the ten bits (R12). -/
theorem extract_append_extract (v : Duty) : v.extractLsb' 2 8 ++ v.extractLsb' 0 2 = v :=
  (BitVec.extractLsb'_append_extractLsb'_eq_extractLsb' (start₁ := 0) (len₁ := 2) rfl).trans
    BitVec.extractLsb'_eq_self

/-! ### The last value of a channel -/

theorem lastValue_concat (evs : List Event) (e : Event) (c : Channel) :
    lastValue (evs ++ [e]) c = if e.channel = c then some e.value else lastValue evs c := by
  by_cases h : e.channel = c <;> simp [lastValue, List.filter_append, h]

/-- After one event per channel of a list, the last value of a channel in it is its own and of any other is as
before. -/
theorem lastValue_append_map (f : Channel → Duty) (c : Channel) (l : List Channel) (evs : List Event) :
    lastValue (evs ++ l.map fun d => ⟨d, f d⟩) c = if c ∈ l then some (f c) else lastValue evs c := by
  induction l generalizing evs with
  | nil => simp
  | cons d ds ih =>
    rw [List.map_cons, List.append_cons, ih, lastValue_concat]
    by_cases hd : d = c
    · simp [hd]
    · simp [hd, Ne.symm hd]

/-- The last value of a channel after a command: the one just computed where the command evaluates it. -/
theorem effect_lastValue (i : Instr) (s : State) (r : Regs) (c : Channel) :
    lastValue (effect i s r).events c =
      if c ∈ channelsOf i then some (evaluate s.config (phaseAfter i s r) (offset c))
      else lastValue s.events c := by
  rw [effect_events]
  exact lastValue_append_map (fun d => evaluate s.config (phaseAfter i s r) (offset d)) c _ _

end Sys2Proof.Machine
end

section
/-! SUPPORT. The obligations of the family of 10_state.md: what depends on what, the invariants of every step, the
writers of each register, and the ports. -/

namespace Sys2Proof.Machine

/-! ### What a step depends on -/

/-- Settles O47: the phase, VALID, the events and the counts of `effect` mention no DUTY value, and the channels it does
not evaluate keep their own. -/
theorem dutyNeverRead : Obligations.DutyNeverRead := by
  rintro s r d i ⟨hvalid, hregs⟩
  have samePhase : phaseAfter i { s with regs := some { r with duty := d } } { r with duty := d } =
      phaseAfter i s r := phaseAfter_congr rfl rfl i
  have hother : State.Ready { s with regs := some { r with duty := d } } { r with duty := d } := ⟨hvalid, rfl⟩
  refine ⟨_, _, _, _, exec_of_ready ⟨hvalid, hregs⟩ i, exec_of_ready hother i, effect_regs hregs i,
    effect_regs hother.2 i, ?phase, PerChannel.ext_get fun c => ?valid, ?config, ?inputs, ?events, ?count,
    fun c => ⟨fun hc => ?evaluated, fun hc => ?kept⟩⟩
  case phase => rw [regsAfter_phase, regsAfter_phase, samePhase]
  case valid => rw [regsAfter_valid, regsAfter_valid]
  case config => rw [effect_config, effect_config]
  case inputs => rw [effect_inputs, effect_inputs]
  case events => rw [effect_events, effect_events, samePhase]
  case count => rw [effect_tickCount, effect_tickCount]
  case evaluated => rw [regsAfter_duty, regsAfter_duty, if_pos hc, if_pos hc, samePhase]
  case kept => exact ⟨by rw [regsAfter_duty, if_neg hc], by rw [regsAfter_duty, if_neg hc]⟩

/-- Settles O48: a reset step leaves the reset registers and no event, and the registers and events of a command are
functions of the configuration and the registers it finds. -/
theorem stepDependsOnRegistersAndPorts : Obligations.StepDependsOnRegistersAndPorts := by
  intro s s' t hconfig hregs hports h
  obtain ⟨hrst, hvalid, rfl⟩ | ⟨hrst, r, ⟨hvalid, hr⟩, rfl⟩ := step_cases h
  case inl =>
    exact ⟨_, [], step_of_reset (hconfig ▸ hvalid) (hports ▸ hrst), rfl, hconfig,
      (List.append_nil _).symm, (List.append_nil _).symm⟩
  case inr =>
    have hr' : s'.regs = some r := hregs.trans hr
    have hconfig' : s'.takeInput.config = s.takeInput.config := hconfig
    refine ⟨_, _, step_of_ready ⟨hconfig ▸ hvalid, hr'⟩ (hports ▸ hrst), ?regs, ?config, effect_events _ _ _, ?events⟩
    case regs =>
      rw [effect_regs (s := s'.takeInput) hr', effect_regs (s := s.takeInput) hr, regsAfter_congr hconfig', hports]
    case config => rw [effect_config, effect_config, hconfig']
    case events => rw [effect_events, phaseAfter_congr hconfig' rfl, hconfig', hports, takeInput_events]

/-! ### The invariants -/

/-- Settles O50: a command sets VALID at exactly the channels whose DUTY it writes. -/
theorem validMeansWrittenKept : Obligations.ValidMeansWrittenKept := by
  intro s t hinv h
  obtain ⟨_, _, rfl⟩ | ⟨hrst, r, ⟨_, hr⟩, _⟩ := step_cases h
  case inl => exact validInv_of_reset rfl
  case inr =>
    intro q hq c
    obtain rfl := Option.some.inj ((step_command_regs h hr hrst).symm.trans hq)
    rw [regsAfter_valid, regsAfter_duty, hinv r hr c]
    split <;> rfl

/-- Settles O51: a command writes to DUTY the value of the event it emits for that channel, and emits no event for the
other channels. -/
theorem dutyIsLastSinkValueKept : Obligations.DutyIsLastSinkValueKept := by
  intro s t hinv h
  obtain ⟨_, _, rfl⟩ | ⟨hrst, r, ⟨_, hr⟩, ht⟩ := step_cases h
  case inl => exact sinkInv_of_reset rfl
  case inr =>
    intro q c v hq hd
    obtain rfl := Option.some.inj ((step_command_regs h hr hrst).symm.trans hq)
    rw [regsAfter_duty] at hd
    rw [ht, effect_lastValue]
    split at hd
    case isTrue hc => rw [if_pos hc]; exact hd
    case isFalse hc => rw [if_neg hc]; exact hinv r c v hr hd

/-- Settles O52: a DUTY written by the step is Evaluate at the closed form of the count the step leaves, and an older
one keeps its n, since the count never falls but at reset. -/
theorem dutyIsEvaluationKept : Obligations.DutyIsEvaluationKept := by
  intro s t hphase hinv h
  obtain ⟨_, _, rfl⟩ | ⟨hrst, r, ⟨_, hr⟩, rfl⟩ := step_cases h
  case inl => exact dutyInv_of_reset rfl
  case inr =>
    intro q c v hq hd
    obtain rfl := Option.some.inj ((step_command_regs h hr hrst).symm.trans hq)
    rw [regsAfter_duty] at hd
    rw [effect_config]
    split at hd
    case isTrue =>
      refine ⟨_, le_rfl, ?_⟩
      rw [← Option.some.inj hd]
      exact congrArg (evaluate s.config · (offset c)) (phaseAfter_closedForm (s := s.takeInput) hphase hr _)
    case isFalse =>
      obtain ⟨n, hn, hv⟩ := hinv r c v hr hd
      have hgrows : s.tickCount ≤ (effect (decodeCmd s.presented.cmd) s.takeInput r).tickCount := by
        rw [effect_tickCount, takeInput_tickCount]
        split <;> omega
      exact ⟨n, hn.trans hgrows, hv⟩

/-- Settles O53: the reset registers hold phase 0 and no DUTY value, and at power-on there are no registers. -/
theorem invariantsAtStart : Obligations.InvariantsAtStart :=
  ⟨⟨phaseInv_of_reset rfl rfl, validInv_of_reset rfl, sinkInv_of_reset rfl, dutyInv_of_reset rfl⟩,
    fun _ _ => invariants_of_no_regs rfl⟩

/-! ### The writers of each register -/

/-- Settles O40: the phase a command leaves is advanced exactly at the words of ADV and TICK. -/
theorem phaseWriters : Obligations.PhaseWriters := by
  intro s t r h hr hrst
  refine ⟨_, step_command_regs h hr hrst, ?_⟩
  rw [regsAfter_phase, phaseAfter]
  simp only [advancesPhase_decodeCmd, advance]

/-- Settles O41: the channels a command writes are those its word evaluates. -/
theorem dutyWriters : Obligations.DutyWriters := by
  intro s t r c h hr hrst
  refine ⟨_, step_command_regs h hr hrst, ?_⟩
  rw [regsAfter_duty, regsAfter_phase]
  simp only [mem_channelsOf_decodeCmd]

/-- Settles O42: the reset registers have no VALID bit set, and a command sets those of the channels it evaluates. -/
theorem validWriters : Obligations.ValidWriters := by
  intro s t c h
  obtain ⟨hrst, _, rfl⟩ | ⟨hrst, r, ⟨_, hr⟩, _⟩ := step_cases h
  case inl => exact ⟨_, rfl, fun _ => regs_reset_valid c, fun _ _ hn => by simp [hrst] at hn⟩
  case inr =>
    refine ⟨_, step_command_regs h hr hrst, fun hreset => by simp [hrst] at hreset, fun r' hr' _ => ?_⟩
    obtain rfl := Option.some.inj (hr.symm.trans hr')
    rw [regsAfter_valid, ← mem_channelsOf_decodeCmd]
    by_cases hc : c ∈ channelsOf (decodeCmd s.presented.cmd) <;> simp [hc]

/-- Settles O43: a reset step clears the count, and a command counts exactly when it advances the phase. -/
theorem ghostCount : Obligations.GhostCount := by
  intro s t h
  obtain ⟨hrst, _, rfl⟩ | ⟨hrst, r, _, rfl⟩ := step_cases h
  case inl => simp [hrst]
  case inr => simp [hrst, effect_tickCount, advancesPhase_decodeCmd]

/-- Settles O44: both kinds of step act on the state with the input taken, and no command touches the inputs. -/
theorem oneInputPerStep : Obligations.OneInputPerStep := by
  intro s t h
  obtain ⟨_, _, rfl⟩ | ⟨_, r, _, rfl⟩ := step_cases h
  case inl => rfl
  case inr => rw [effect_inputs, takeInput_inputs]

/-! ### Reset, the running of a command, and the ports -/

/-- Settles O22: the reset registers, in the valid worked configuration. -/
theorem resetValues : Obligations.ResetValues :=
  ⟨Regs.reset, rfl, rfl, fun c => ⟨regs_reset_duty c, regs_reset_valid c⟩, rfl, rfl, by decide, rfl⟩

/-- Settles O27: the second clause is the first at the command's own word, and the idle input is the word of NOP. -/
theorem stepRunsCommand : Obligations.StepRunsCommand := by
  refine ⟨fun s w rest h => step_of_cons h, fun s i rest h => ?_, fun s h => ?_⟩
  · rw [step_of_cons h, decodeCmd_encode]
  · rw [step, presented_of_nil h, takeInput_of_nil h]
    rfl

/-- Settles O28: the placed word is in front of the inputs, and the step takes it off again. -/
theorem fetchWordRuns : Obligations.FetchWordRuns := by
  intro s i
  rw [withFetchWord_encode, step_of_cons (present_inputs s i.toInput), decodeCmd_encode]
  rfl

/-- Settles O45: the strobe bits are those of the channels the word evaluates. -/
theorem dutyWeBits : Obligations.DutyWeBits := by
  intro i c
  rw [dutyWe_getLsbD, mem_channelsOf_decodeCmd]

/-- Settles O57: the coarse and fine ports are the two fields of the duty port, which join to the whole value. -/
theorem portsShowRegisters : Obligations.PortsShowRegisters := by
  intro s r c hr
  have hduty := dutyPort_of_regs hr c
  refine ⟨phasePort_of_regs hr, hduty, validPort_of_regs hr c, fun hnone => ?_, fun v hv => ?_⟩
  · simp [State.coarsePort, State.finePort, hduty, hnone]
  · refine ⟨_, _, ?_, ?_, coarse_eq_extract v, fine_eq_extract v, ?_⟩
    · simp [State.coarsePort, hduty, hv]
    · simp [State.finePort, hduty, hv]
    · rw [coarse_eq_extract, fine_eq_extract, extract_append_extract]

/-- Settles O58: a reset step leaves the reset registers, and the three duty ports carry a value together. -/
theorem unwrittenPorts : Obligations.UnwrittenPorts := by
  refine ⟨fun s t c hrst h => ?_, fun s c hinv => ?_⟩
  · obtain ⟨_, _, rfl⟩ | ⟨hn, _⟩ := step_cases h
    case inl => simp [State.coarsePort, State.finePort, State.dutyPort, State.validPort]
    case inr => simp [hrst] at hn
  · have hduty := validPort_iff_dutyPort hinv c
    simp only [← Option.isSome_iff_exists, coarsePort_isSome, finePort_isSome]
    exact ⟨hduty, hduty, hduty⟩

end Sys2Proof.Machine
end

section
/-! SUPPORT. The default sine table (R31, R32): its symmetries, by which one quarter wave determines it, and how near
each entry is to the sine. Then the events of a step against the strobe of that step (R19, R36). -/

namespace Sys2Proof.Machine

open Sys2Proof.Laws

/-! ### The symmetries of the default table -/

theorem sineTable_admissible : tableAdmissible sineTable = true := by decide

theorem tableAt_add_half (i : Fin 64) : tableAt Config.worked (i + 32) = -tableAt Config.worked i := by
  revert i
  decide

theorem tableAt_reflect (i : Fin 33) :
    tableAt Config.worked ⟨32 - i.val, by omega⟩ = tableAt Config.worked ⟨i.val, by omega⟩ := by
  revert i
  decide

/-! ### An integer against the sine -/

/-- The integer is the nearest one to 32767 sin x, and no half-integer is within 0.02 of that product (R32). -/
def NearestToSine (v : ℤ) (x : ℝ) : Prop :=
  |(v : ℝ) - 32767 * Real.sin x| < 1 / 2 - 0.02

theorem nearestToSine_reflect {v : ℤ} {x : ℝ} : NearestToSine v (Real.pi - x) ↔ NearestToSine v x := by
  rw [NearestToSine, NearestToSine, Real.sin_pi_sub]

theorem nearestToSine_neg {v : ℤ} {x : ℝ} : NearestToSine (-v) (x + Real.pi) ↔ NearestToSine v x := by
  have flip : ((-v : ℤ) : ℝ) - 32767 * -Real.sin x = -((v : ℝ) - 32767 * Real.sin x) := by
    push_cast
    ring
  rw [NearestToSine, NearestToSine, Real.sin_add_pi, flip, abs_neg]

/-- The rational approximation decides it: the distance to it and its error together leave the margin. -/
theorem nearestToSine_of_sinNear {v : ℤ} {k : ℕ}
    (h : |(v : ℚ) - 32767 * sinNear k| + 32767 * sinError k < 12 / 25) :
    NearestToSine v (k * (Real.pi / 32)) := by
  have margin : |(v : ℝ) - 32767 * sinNear k| + 32767 * sinError k < 12 / 25 := by
    simpa using (Rat.cast_lt (K := ℝ)).mpr h
  calc |(v : ℝ) - 32767 * Real.sin (k * (Real.pi / 32))|
      ≤ |(v : ℝ) - 32767 * sinNear k| + |32767 * sinNear k - 32767 * Real.sin (k * (Real.pi / 32))| :=
        abs_sub_le _ _ _
    _ = |(v : ℝ) - 32767 * sinNear k| + 32767 * |Real.sin (k * (Real.pi / 32)) - sinNear k| := by
        rw [← mul_sub, abs_mul, abs_sub_comm (sinNear k : ℝ), abs_of_pos (by norm_num : (0 : ℝ) < 32767)]
    _ ≤ |(v : ℝ) - 32767 * sinNear k| + 32767 * sinError k := by gcongr; exact sin_near k
    _ < 1 / 2 - 0.02 := margin.trans_eq (by norm_num)

/-! ### The default table against the sine, quarter by quarter -/

/-- The quarter wave against the rational approximation, whose error is below 10⁻¹¹ there. -/
theorem tableAt_sinNear (i : Fin 17) :
    |(tableAt Config.worked ⟨i.val, by omega⟩ : ℚ) - 32767 * sinNear i| + 32767 * sinError i < 12 / 25 := by
  fin_cases i <;>
    norm_num [tableAt, Config.worked, sineTable, sineWordsLow, BitVec.toInt, sinNear, sinError, cosStep, sinStep,
      abs_lt, ← lt_sub_iff_add_lt]

theorem tableAt_nearest_quarter {k : ℕ} (h : k ≤ 16) :
    NearestToSine (tableAt Config.worked ⟨k, by omega⟩) (k * (Real.pi / 32)) :=
  nearestToSine_of_sinNear (tableAt_sinNear ⟨k, by omega⟩)

/-- The second quarter is the first one reflected at the peak. -/
theorem tableAt_nearest_half {k : ℕ} (h : k ≤ 32) :
    NearestToSine (tableAt Config.worked ⟨k, by omega⟩) (k * (Real.pi / 32)) := by
  obtain hk | hk := le_total k 16
  case inl => exact tableAt_nearest_quarter hk
  case inr =>
    have angle : Real.pi - k * (Real.pi / 32) = (32 - k : ℕ) * (Real.pi / 32) := by
      rw [Nat.cast_sub h]
      push_cast
      ring
    rw [← tableAt_reflect ⟨k, by omega⟩, ← nearestToSine_reflect, angle]
    exact tableAt_nearest_quarter (k := 32 - k) (by omega)

/-- The second half is minus the first. -/
theorem tableAt_nearest (i : Fin 64) : NearestToSine (tableAt Config.worked i) (i.val * (Real.pi / 32)) := by
  obtain hi | hi := le_total i.val 32
  case inl => exact tableAt_nearest_half hi
  case inr =>
    have index : (⟨i.val - 32, by omega⟩ : Fin 64) + 32 = i := Fin.ext <| by
      rw [Fin.val_add]
      change (i.val - 32 + 32) % 64 = i.val
      omega
    have entry : tableAt Config.worked i = -tableAt Config.worked ⟨i.val - 32, by omega⟩ := by
      rw [← tableAt_add_half, index]
    have angle : i.val * (Real.pi / 32) = (i.val - 32 : ℕ) * (Real.pi / 32) + Real.pi := by
      rw [Nat.cast_sub hi]
      push_cast
      ring
    rw [angle, entry, nearestToSine_neg]
    exact tableAt_nearest_half (by omega)

/-! ### The strobe and the duty ports -/

theorem channelsOf_eq_filter (i : Instr) :
    channelsOf i = [Channel.ch0, .ch1, .ch2].filter fun c => decide (c ∈ channelsOf i) := by
  cases i <;> rfl

/-- The channels strobed at the coming step: none at a reset step, else those the command evaluates, in order (R19). -/
theorem strobed_channels (s : State) :
    ([Channel.ch0, .ch1, .ch2].filter fun c => s.dutyWePort.getLsbD (channelNumber c)) =
      if s.presented.rst then [] else channelsOf (decodeCmd s.presented.cmd) := by
  split
  case isTrue hrst => simp [State.dutyWePort, dutyWe, hrst]
  case isFalse hrst =>
    rw [channelsOf_eq_filter]
    refine List.filter_congr fun c _ => Bool.eq_iff_iff.mpr ?_
    rw [State.dutyWePort, dutyWe_getLsbD, decide_eq_true_iff]
    simp [hrst]

/-- The ports of a channel a command evaluates show the value of its event, and that it is valid (R36). -/
theorem effect_ports {s : State} {r : Regs} (hr : s.regs = some r) {i : Instr} {c : Channel}
    (hc : c ∈ channelsOf i) :
    (effect i s r).dutyPort c = some (evaluate s.config (phaseAfter i s r) (offset c)) ∧
      (effect i s r).validPort c = some true := by
  have hregs := effect_regs hr i
  rw [dutyPort_of_regs hregs, validPort_of_regs hregs, regsAfter_duty, regsAfter_valid, if_pos hc, if_pos hc]
  exact ⟨rfl, rfl⟩

/-! ### The obligations -/

/-- Settles O10: the quarter wave is compared with the rational approximation, and the symmetries give the other
three quarters. -/
theorem tableIsNearest : Obligations.TableIsNearest := by
  intro i
  have angle : 2 * Real.pi * (i.val : ℝ) / 64 = i.val * (Real.pi / 32) := by ring
  rw [angle]
  exact tableAt_nearest i

/-- Settles O46: a reset step strobes no channel and adds no event; a command adds one event per channel it evaluates,
which are the strobed ones, and writes each event's value to that channel's register. -/
theorem eventsFollowStrobe : Obligations.EventsFollowStrobe := by
  intro s t h
  rw [strobed_channels]
  obtain ⟨hrst, _, rfl⟩ | ⟨hrst, r, ⟨_, hr⟩, rfl⟩ := step_cases h
  case inl => exact ⟨[], (List.append_nil _).symm, by rw [if_pos hrst, List.map_nil], by simp⟩
  case inr =>
    refine ⟨_, effect_events _ s.takeInput r, ?channels, fun e he => ?ports⟩
    case channels => simp [hrst, Function.comp_def]
    case ports =>
      obtain ⟨c, hc, rfl⟩ := List.mem_map.mp he
      exact effect_ports (s := s.takeInput) hr hc

/-- Settles O9: the table is a closed list of words, and its two symmetries are those by which a
quarter wave determines it. -/
theorem defaultTable : Obligations.DefaultTable :=
  ⟨sineTable_admissible, by decide, by decide, tableAt_add_half, tableAt_reflect⟩

end Sys2Proof.Machine
end

section
/-! SUPPORT. The command word (R50 to R52, R60): the encoder as the inverse of the decoder, the decoder on a number of
any width, and the operand of EVL as the number of its channel. -/

namespace Sys2Proof.Machine

/-! ### Words -/

theorem encode_decodeCmd (w : CmdWord) : encode (decodeCmd w) = w := by
  revert w
  decide

/-- A number that fits its width is read whole: three bits are a command word, more are none. -/
theorem decodeTableWord_eq_ite {nbits w : Nat} (hw : w < 2 ^ nbits) :
    decodeTableWord nbits w = if w < 8 then some (decodeCmd (BitVec.ofNat 3 w)) else none := by
  rw [decodeTableWord, decodeBits, Nat.mod_eq_of_lt hw]
  by_cases h : w < 8 <;> simp [h]

/-! ### The operand of EVL -/

/-- The operand is the channel's number, not extended, scaled or shifted (R52). -/
theorem channelOfBits_eq_some_iff {c : BitVec 2} {ch : Channel} :
    channelOfBits c = some ch ↔ channelNumber ch = c.toNat := by
  cases ch <;> revert c <;> decide

theorem channelOfBits_eq_none_iff {c : BitVec 2} : channelOfBits c = none ↔ c = 3#2 := by
  revert c
  decide

/-- The operands that have a command are those that have a channel. -/
theorem evlOfOperand_eq_map (c : BitVec 2) : evlOfOperand c = (channelOfBits c).map evlOf := by
  revert c
  decide

theorem wellFormed_evl_iff {c : BitVec 2} : (Line.evl c).wellFormed = true ↔ c ≠ 3#2 :=
  bne_iff_ne

theorem assemble_evl (c : BitVec 2) :
    (Line.evl c).assemble = (channelOfBits c).map fun ch => [(evlOf ch).toInput] := by
  rw [Line.assemble, evlOfOperand_eq_map, Option.map_map]
  rfl

/-- The word of EVL is 0b100 plus its operand (R60). -/
theorem encode_evlOf {c : BitVec 2} {ch : Channel} (h : channelOfBits c = some ch) :
    encode (evlOf ch) = 0b100#3 + c.setWidth 3 := by
  have operand : c.setWidth 3 = BitVec.ofNat 3 (channelNumber ch) := by
    rw [channelOfBits_eq_some_iff.mp h, BitVec.ofNat_toNat]
  rw [operand]
  cases ch <;> rfl

/-! ### The obligations -/

/-- Settles O1: the eight words are those of the encoder, and the decoder reads each of them back. -/
theorem opcodeMap : Obligations.OpcodeMap :=
  ⟨decodeCmd_encode .nop, decodeCmd_encode .adv, decodeCmd_encode .tick, decodeCmd_encode .rsv3,
    decodeCmd_encode .evl0, decodeCmd_encode .evl1, decodeCmd_encode .evl2, decodeCmd_encode .rsv7⟩

/-- Settles O2: the decoder is a left and a right inverse of the encoder. -/
theorem decodeEncodeAgree : Obligations.DecodeEncodeAgree :=
  ⟨decodeCmd_encode, encode_decodeCmd⟩

/-- Settles O3: on a number that fits its width the decoder asks only whether it is below 8. -/
theorem threeBitsOnly : Obligations.ThreeBitsOnly := by
  intro nbits w _ hw
  rw [decodeTableWord_eq_ite hw]
  exact ⟨fun h => if_pos h, fun h => if_neg (not_lt.mpr h)⟩

/-- Settles O4: an operand other than 3 is the number of a channel, and the line assembles to that channel's word. -/
theorem evlOperand : Obligations.EvlOperand := by
  refine ⟨fun c hc => ?legal, channelOfBits_eq_none_iff.mpr rfl, rfl, assemble_evl 3#2, rfl, rfl, rfl⟩
  case legal =>
    obtain ⟨ch, hch⟩ := Option.ne_none_iff_exists'.mp (mt channelOfBits_eq_none_iff.mp hc)
    have word := encode_evlOf hch
    refine ⟨ch, hch, channelOfBits_eq_some_iff.mp hch, wellFormed_evl_iff.mpr hc, ?assembled, ?decoded⟩
    case assembled =>
      rw [assemble_evl, hch, ← word]
      rfl
    case decoded => rw [← word, decodeCmd_encode]

end Sys2Proof.Machine
end

section
/-! SUPPORT. The phase accumulator (R70 to R74): repeated advances in closed form, the commands that leave the datapath
alone, and a run of commands as one count of its advances; then the obligations on them. -/

namespace Sys2Proof.Machine

/-! ### Repeated advances -/

theorem advance_iterate_toNat (d p : Phase) (n : Nat) :
    ((advance d)^[n] p).toNat = (p.toNat + n * d.toNat) % 65536 := by
  induction n with
  | zero => simp [Nat.mod_eq_of_lt p.isLt]
  | succ n ih =>
    rw [Function.iterate_succ_apply', advance_toNat, ih, Nat.mod_add_mod, Nat.succ_mul, Nat.add_assoc]

/-- Two multiples of `d` agree modulo `k` exactly where their factors agree modulo `k / gcd d k`. -/
theorem mul_modEq_mul_iff {d k : Nat} (hk : 0 < k) (m n : Nat) :
    m * d ≡ n * d [MOD k] ↔ m ≡ n [MOD k / Nat.gcd d k] := by
  constructor
  case mp =>
    intro h
    rw [Nat.gcd_comm]
    exact h.cancel_right_div_gcd hk
  case mpr =>
    intro h
    have hdvd : k ∣ k / Nat.gcd d k * d := by
      rw [Nat.div_mul_right_comm (Nat.gcd_dvd_right d k), Nat.mul_div_assoc k (Nat.gcd_dvd_left d k)]
      exact Nat.dvd_mul_right _ _
    exact (h.mul_right' d).of_dvd hdvd

/-! ### The closed form along a command and along a run -/

/-- Under the closed form the state a command leaves satisfies it again (R73). -/
theorem phaseInv_effect {s : State} {r : Regs} (h : PhaseInv s) (hr : s.regs = some r) (i : Instr) :
    PhaseInv (effect i s r) := by
  intro q hq
  obtain rfl := Option.some.inj ((effect_regs hr i).symm.trans hq)
  rw [regsAfter_phase, phaseAfter_closedForm h hr, BitVec.toNat_ofNat, effect_config]

/-- A run that answers has taken a first step that answers, and goes on from it. -/
theorem run_succ_next {k : Nat} {s t : State} (h : Host.Core.run Sys2Proof.core (k + 1) s = .next t) :
    ∃ u, step s = .next u ∧ Host.Core.run Sys2Proof.core k u = .next t := by
  cases hs : step s with
  | next u => exact ⟨u, rfl, (run_of_step_next hs k).symm.trans h⟩
  | fault f => exact nomatch f
  | refused q => exact nomatch (run_of_step_refused hs k).symm.trans h

/-- What every step keeps, a run keeps. -/
theorem run_keeps {P : State → Prop} (hstep : ∀ s t, P s → step s = .next t → P t) {k : Nat} {s t : State}
    (hs : P s) (h : Host.Core.run Sys2Proof.core k s = .next t) : P t := by
  induction k generalizing s with
  | zero => cases h; exact hs
  | succ k ih =>
    obtain ⟨u, hu, hrun⟩ := run_succ_next h
    exact ih (hstep s u hs hu) hrun

/-- The step at a command's own word, from a ready state. -/
theorem step_toInput {s : State} {r : Regs} {i : Instr} {rest : List Input} (h : s.Ready r)
    (hin : s.inputs = i.toInput :: rest) : step s = .next (effect i s.takeInput r) := by
  rw [step_of_cons hin, decodeCmd_encode, ← takeInput_of_cons hin]
  exact exec_of_ready (takeInput_ready.mpr h) i

/-- A run of commands from a ready state completes: it takes their inputs and counts those that advance the phase. -/
theorem run_commands {s : State} {r : Regs} (h : s.Ready r) (l : List Instr) {rest : List Input}
    (hin : s.inputs = l.map Instr.toInput ++ rest) :
    ∃ t q, Host.Core.run Sys2Proof.core l.length s = .next t ∧ t.Ready q ∧ t.config = s.config ∧
      t.inputs = rest ∧ t.tickCount = s.tickCount + l.countP advancesPhase := by
  induction l generalizing s r with
  | nil => exact ⟨s, r, rfl, h, rfl, hin, rfl⟩
  | cons i l ih =>
    obtain ⟨q, hq⟩ := effect_ready (takeInput_ready.mpr h) i
    obtain ⟨t, q', hrun, hready, hconfig, hinputs, hcount⟩ := ih hq (by simp [hin])
    refine ⟨t, q', (run_of_step_next (step_toInput h hin) _).trans hrun, hready, ?config, hinputs, ?count⟩
    case config => rw [hconfig, effect_config, takeInput_config]
    case count =>
      rw [hcount, effect_tickCount, takeInput_tickCount, List.countP_cons]
      split <;> omega

/-! ### The obligations -/

/-- Settles O49: a reset step leaves phase 0 and count 0, and a command advances the phase exactly when it counts. -/
theorem phaseClosedFormKept : Obligations.PhaseClosedFormKept := by
  intro s t hinv h
  obtain ⟨_, _, rfl⟩ | ⟨_, r, ⟨_, hr⟩, rfl⟩ := step_cases h
  case inl => exact phaseInv_of_reset rfl rfl
  case inr => exact phaseInv_effect (s := s.takeInput) hinv hr _

/-- Settles O12: n advances add n times DELTA, and the common phase they start from cancels modulo 65536. -/
theorem advancePeriod : Obligations.AdvancePeriod := by
  intro d p m n
  rw [← BitVec.toNat_inj, advance_iterate_toNat, advance_iterate_toNat]
  calc p.toNat + m * d.toNat ≡ p.toNat + n * d.toNat [MOD 65536]
      ↔ m * d.toNat ≡ n * d.toNat [MOD 65536] := Nat.ModEq.add_iff_left rfl
    _ ↔ m ≡ n [MOD 65536 / Nat.gcd d.toNat 65536] := mul_modEq_mul_iff (by decide) m n

/-- Settles O29: the effect of each of the three commands is the state it finds. -/
theorem nopAndReserved : Obligations.NopAndReserved :=
  ⟨decodeCmd_encode .nop, decodeCmd_encode .rsv3, decodeCmd_encode .rsv7,
    fun _ _ h => ⟨exec_of_ready h .nop, exec_of_ready h .rsv3, exec_of_ready h .rsv7⟩⟩

/-- Settles O30: the effect of ADV writes the phase and the count. -/
theorem advEffect : Obligations.AdvEffect := by
  refine ⟨decodeCmd_encode .adv, fun s r h => ?_⟩
  have hexec : exec .adv s = .next (effect .adv s r) := exec_of_ready h .adv
  have hregs : (effect .adv s r).regs = some { r with phase := advance s.config.delta r.phase } :=
    effect_regs h.2 .adv
  refine ⟨advance s.config.delta r.phase, advance_toNat _ _, ?result, fun t ht => ?port⟩
  case result => rw [hexec, ← hregs]; rfl
  case port =>
    obtain rfl := Host.Outcome.next.inj (hexec.symm.trans ht)
    exact phasePort_of_regs hregs

/-- Settles O54: the reset step leaves a ready state with count 0, the commands count their advances, and the closed form
holds along the whole run. -/
theorem phaseAfterRun : Obligations.PhaseAfterRun := by
  intro s w l rest hvalid hin
  have hports : s.presented = ⟨true, w⟩ := presented_of_cons hin
  have hreset := step_of_reset hvalid (by rw [hports])
  obtain ⟨t, r, hrun, ⟨_, hr⟩, hconfig, hinputs, hcount⟩ :=
    run_commands (s := { s.takeInput with regs := some Regs.reset, tickCount := 0 }) ⟨hvalid, rfl⟩ l
      (rest := rest) (by simp [hin])
  have hinv : PhaseInv t := run_keeps phaseClosedFormKept (phaseInv_of_reset rfl rfl) hrun
  refine ⟨t, r, (run_of_step_next hreset _).trans hrun, hr, ?_, hinputs⟩
  rw [hinv r hr, hcount, hconfig, Nat.zero_add]
  rfl

/-- Settles O11: a sum of two 16-bit numbers is below 131072, so the reduction takes off 65536 once or not at all. -/
theorem advanceFormula : Obligations.AdvanceFormula := by
  intro d p
  have hsum := advance_toNat d p
  have hd : d.toNat < 65536 := d.isLt
  have hp : p.toNat < 65536 := p.isLt
  refine ⟨hsum, fun hne heq => ?moves, fun hlt => by omega, fun hge => by omega⟩
  case moves =>
    rw [delta_ne_zero_iff] at hne
    rw [heq] at hsum
    omega

end Sys2Proof.Machine
end

section
/-! SUPPORT. The sine-table evaluator (R80 to R84): the sample phase as a sum, the table index as its top six bits, how
the index follows a phase offset, and the table read; then the obligations on them. -/

namespace Sys2Proof.Machine

/-! ### The sample phase -/

theorem samplePhase_zero (b : Phase) : samplePhase b 0#16 = b :=
  BitVec.add_zero b

/-- The base phase cancels between two channels: their sample phases are as far apart as their offsets. -/
theorem samplePhase_sub_samplePhase (b : Phase) (o o' : PhaseOffset) :
    samplePhase b o - samplePhase b o' = o - o' :=
  add_sub_add_left_eq_sub o o' b

theorem samplePhase_add (b : Phase) (o o' : PhaseOffset) :
    samplePhase b (o + o') = samplePhase (samplePhase b o) o' :=
  (BitVec.add_assoc b o o').symm

/-! ### The table index -/

theorem tableIndex_eq_extractLsb' (sp : Phase) : tableIndex sp = sp.extractLsb' 10 6 :=
  BitVec.setWidth_ushiftRight_eq_extractLsb

theorem tableIndex_eq_iff (sp : Phase) (i : TableIndex) :
    tableIndex sp = i ↔ 1024 * i.toNat ≤ sp.toNat ∧ sp.toNat ≤ 1024 * i.toNat + 1023 := by
  rw [← BitVec.toNat_inj, tableIndex_toNat]
  omega

/-- The index of a sum of phases is the sum of their indices, plus one where the low ten bits carry. -/
theorem tableIndex_samplePhase (sp : Phase) (o : PhaseOffset) :
    tableIndex (samplePhase sp o) = tableIndex sp + tableIndex o ∨
      tableIndex (samplePhase sp o) = tableIndex sp + (tableIndex o + 1#6) := by
  simp only [← BitVec.toNat_inj, BitVec.toNat_add, tableIndex_toNat, samplePhase_toNat, BitVec.toNat_ofNat]
  omega

/-- A third of a cycle is 21 table entries and a third of an entry, so the index moves on by 21 or 22 (R84). -/
theorem tableIndex_third_sub (sp : Phase) :
    tableIndex (samplePhase sp 0x5555#16) - tableIndex sp = 21#6 ∨
      tableIndex (samplePhase sp 0x5555#16) - tableIndex sp = 22#6 := by
  have third : tableIndex 0x5555#16 = 21#6 := rfl
  obtain h | h := tableIndex_samplePhase sp 0x5555#16 <;> rw [h, third, add_sub_cancel_left]
  · exact .inl rfl
  · exact .inr rfl

/-! ### The table read -/

theorem sineSample_toInt (cfg : Config) (i : TableIndex) :
    (sineSample cfg i).toInt = tableAt cfg ⟨i.toNat, i.isLt⟩ :=
  rfl

theorem sineSample_congr {cfg cfg' : Config} (h : cfg'.table = cfg.table) (i : TableIndex) :
    sineSample cfg' i = sineSample cfg i := by
  simp only [sineSample, romRead, h]

/-! ### The obligations -/

/-- Settles O14: the sum of two 16-bit numbers is taken modulo 65536. -/
theorem samplePhaseFormula : Obligations.SamplePhaseFormula :=
  ⟨samplePhase_toNat, samplePhase_zero, rfl, rfl, samplePhase_toNat _ _⟩

/-- Settles O16: the index is the quotient by 1024, which is below 64 and fixes the block of 1024 sample phases. -/
theorem tableIndexFormula : Obligations.TableIndexFormula :=
  fun sp => ⟨tableIndex_toNat sp, tableIndex_eq_extractLsb' sp, (tableIndex sp).isLt, tableIndex_eq_iff sp⟩

/-- Settles O15: the separations are those of the offsets, and each channel's offset is the one before it plus a third
of a cycle. -/
theorem channelSeparation : Obligations.ChannelSeparation := by
  intro b
  refine ⟨samplePhase_sub_samplePhase b _ _, samplePhase_sub_samplePhase b _ _, samplePhase_sub_samplePhase b _ _,
    samplePhase_sub_samplePhase b _ _, fun c d hadj => ?_⟩
  have hoffset : offset d = offset c + 0x5555#16 := by
    obtain ⟨rfl, rfl⟩ | ⟨rfl, rfl⟩ := hadj <;> rfl
  rw [hoffset, samplePhase_add]
  exact tableIndex_third_sub _

/-- Settles O19: the sample is the word at the index, a word of the configuration's table alone, and every word of a
valid table is in range. -/
theorem tableRead : Obligations.TableRead :=
  ⟨rfl, rfl, rfl, fun cfg i =>
    ⟨sineSample_toInt cfg i, fun _ h => sineSample_congr h i, fun h => romRead_admissible h i⟩⟩

end Sys2Proof.Machine
end

section
/-! SUPPORT. The duty rescaler (R91 to R97): a duty value over the integers, Evaluate as a function of the table and the
index alone, and EVL as one write of its channel; then the obligations on them. -/

namespace Sys2Proof.Machine

/-! ### Rescaling and the split -/

theorem scale_eq_extract (y : Centered) : scale y = y.extractLsb' 6 10 :=
  BitVec.setWidth_ushiftRight_eq_extractLsb

/-- On an admissible sample the centred value does not wrap, so its scaling is the floor of the exact sum (R91, R93). -/
theorem scale_center_toNat {x : Sample} (lo : -32767 ≤ x.toInt) (hi : x.toInt ≤ 32767) :
    ((scale (center x)).toNat : Int) = (32767 + x.toInt) / 64 := by
  rw [scale_toNat, Int.natCast_ediv, center_toNat lo hi, Nat.cast_ofNat]

theorem coarse_toNat (v : Duty) : (coarse v).toNat = v.toNat / 4 := by
  have hv : v.toNat < 1024 := v.isLt
  rw [coarse_eq_extract, BitVec.extractLsb'_toNat, Nat.shiftRight_eq_div_pow]
  omega

theorem fine_toNat (v : Duty) : (fine v).toNat = v.toNat % 4 := by
  rw [fine_eq_extract, BitVec.extractLsb'_toNat, Nat.shiftRight_zero]

/-! ### Evaluate -/

theorem tableIndex_samplePhase_toNat (b : Phase) (o : PhaseOffset) :
    (tableIndex (samplePhase b o)).toNat = (b.toNat + o.toNat) % 65536 / 1024 := by
  rw [tableIndex_toNat, samplePhase_toNat]

/-- The sample Evaluate reads is the table's entry at the integer index (R80 to R82). -/
theorem sineSample_samplePhase_toInt (cfg : Config) (b : Phase) (o : PhaseOffset) :
    (sineSample cfg (tableIndex (samplePhase b o))).toInt = tableAt cfg (indexValue b.toNat o.toNat) := by
  rw [sineSample_toInt]
  exact congrArg (tableAt cfg) (Fin.ext (tableIndex_samplePhase_toNat b o))

theorem tableAt_admissible {cfg : Config} (h : cfg.valid = true) (i : Fin 64) :
    -32767 ≤ tableAt cfg i ∧ tableAt cfg i ≤ 32767 :=
  romRead_admissible h (BitVec.ofFin i)

/-- Under a valid configuration the machine's Evaluate is the integer formula (R95). -/
theorem evaluate_toNat {cfg : Config} (h : cfg.valid = true) (b : Phase) (o : PhaseOffset) :
    ((evaluate cfg b o).toNat : Int) = dutyValue cfg b.toNat o.toNat := by
  obtain ⟨lo, hi⟩ := romRead_admissible h (tableIndex (samplePhase b o))
  rw [dutyValue, ← sineSample_samplePhase_toInt]
  exact scale_center_toNat lo hi

/-- Evaluate depends on its three arguments only through the table and the index. -/
theorem evaluate_eq_of_tableIndex {cfg cfg' : Config} (ht : cfg.table = cfg'.table) {b : Phase} {o : PhaseOffset}
    {i : TableIndex} (hi : tableIndex (samplePhase b o) = i) :
    evaluate cfg b o = scale (center (sineSample cfg' i)) := by
  rw [evaluate, hi, sineSample_congr ht]

/-! ### EVL -/

theorem writeDuty_of_regs {s : State} {r : Regs} (h : s.regs = some r) (c : Channel) (v : Duty) :
    s.writeDuty c v = { s with regs := some (r.writeDuty c v), events := s.events ++ [⟨c, v⟩] } := by
  rw [State.writeDuty, h, Option.map_some]

theorem writeDuty_ready {s : State} {r : Regs} (h : s.Ready r) (c : Channel) (v : Duty) :
    (s.writeDuty c v).Ready (r.writeDuty c v) :=
  ⟨h.1, by rw [writeDuty_regs, h.2, Option.map_some]⟩

theorem regs_writeDuty_idem (r : Regs) (c : Channel) (v : Duty) :
    (r.writeDuty c v).writeDuty c v = r.writeDuty c v := by
  cases c <;> rfl

/-- The same duty write again changes no register and adds one more event (R36). -/
theorem writeDuty_again (s : State) (c : Channel) (v : Duty) :
    (s.writeDuty c v).writeDuty c v =
      { s.writeDuty c v with events := s.events ++ [⟨c, v⟩, ⟨c, v⟩] } := by
  simp [State.writeDuty, Function.comp_def, regs_writeDuty_idem]

/-- EVL c completes from every ready state, and is one duty write of its channel (R96). -/
theorem exec_evlOf {s : State} {r : Regs} (h : s.Ready r) (c : Channel) :
    exec (evlOf c) s = .next (s.writeDuty c (evaluate s.config r.phase (offset c))) := by
  rw [exec_of_ready h]
  cases c <;> rfl

theorem exec_evlOf_fields {s : State} {r : Regs} (h : s.Ready r) (c : Channel) :
    exec (evlOf c) s = .next { s with
      regs := some (r.writeDuty c (evaluate s.config r.phase (offset c)))
      events := s.events ++ [⟨c, evaluate s.config r.phase (offset c)⟩] } := by
  rw [exec_evlOf h, writeDuty_of_regs h.2]

/-! ### The obligations -/

/-- Settles O20: the sample of a valid table is centred without a wrap, and the index is a function of the sum. -/
theorem evaluateExact : Obligations.EvaluateExact := by
  refine ⟨fun _ b o h => evaluate_toNat h b o, fun cfg b b' o o' hsum => ?_⟩
  rw [← tableIndex_samplePhase_toNat, ← tableIndex_samplePhase_toNat, BitVec.toNat_inj] at hsum
  exact evaluate_eq_of_tableIndex rfl hsum

/-- Settles O21: a sample in [-32767, 32767] is centred into [0, 65534], whose floor by 64 is in [0, 1023]; the default
table's entries are at both ends at its trough and peak, and 0 at its zero crossings. -/
theorem dutyRange : Obligations.DutyRange := by
  refine ⟨fun cfg b o h => ?range, fun cfg b o (ht : cfg.table = Config.worked.table) =>
    ⟨fun trough => ?low, fun peak => ?high, fun zero => ?middle⟩⟩
  case range =>
    obtain ⟨lo, hi⟩ := tableAt_admissible h (indexValue b o)
    rw [dutyValue]
    omega
  case low => exact (evaluate_eq_of_tableIndex ht trough).trans (by decide)
  case high => exact (evaluate_eq_of_tableIndex ht peak).trans (by decide)
  case middle =>
    obtain start | half := zero
    · exact (evaluate_eq_of_tableIndex ht start).trans (by decide)
    · exact (evaluate_eq_of_tableIndex ht half).trans (by decide)

/-- Settles O31: each of the three commands is EVL of its channel, whose one duty write is spelled out per field. -/
theorem evlEffect : Obligations.EvlEffect := by
  refine ⟨decodeCmd_encode .evl0, decodeCmd_encode .evl1, decodeCmd_encode .evl2, fun s r h => ?_⟩
  have value (c : Channel) := evaluate_toNat h.1 r.phase (offset c)
  exact ⟨⟨_, value .ch0, exec_evlOf_fields h .ch0⟩, ⟨_, value .ch1, exec_evlOf_fields h .ch1⟩,
    ⟨_, value .ch2, exec_evlOf_fields h .ch2⟩⟩

/-- Settles O35: the first EVL keeps the configuration and the phase, so the second computes the same value, writes it
over itself and emits it again. -/
theorem evlIdempotent : Obligations.EvlIdempotent := by
  intro s r c h
  have hready := writeDuty_ready h c (evaluate s.config r.phase (offset c))
  refine ⟨_, _, exec_evlOf h c, writeDuty_events s c _, ?port, ?again⟩
  case port => rw [dutyPort_of_regs hready.2, regs_writeDuty_duty, PerChannel.get_set_self]
  case again =>
    rw [← writeDuty_again]
    exact exec_evlOf hready c

/-- Settles O17: an admissible sample is centred without a wrap, and the scaling is a shift right by six bits. -/
theorem rescaleExact : Obligations.RescaleExact := by
  refine ⟨fun x lo hi => ?sample, fun y => ⟨scale_toNat y, scale_eq_extract y⟩⟩
  case sample =>
    have hcenter := center_toNat lo hi
    exact ⟨hcenter, by omega, scale_center_toNat lo hi⟩

/-- Settles O18: the two fields are the quotient and the remainder by 4. -/
theorem splitLossless : Obligations.SplitLossless := by
  intro v
  refine ⟨coarse_toNat v, coarse_eq_extract v, fine_toNat v, fine_eq_extract v, ?joined⟩
  case joined => rw [coarse_toNat, fine_toNat, Nat.div_add_mod]

end Sys2Proof.Machine
end

section
/-! SUPPORT. The whole tick (R100 to R104): a list of commands run one after another, the registers a list of channels
leaves once each is evaluated at one phase, and the state any tick leaves, as TICK or as ADV and evaluations. -/

namespace Sys2Proof.Machine

/-! ### A list of commands -/

/-- Why no command runs in a state that is not ready (R9, R131). -/
def State.refusal (s : State) : Refusal :=
  if s.config.valid then .beforeFirstReset else .invalidConfiguration

theorem exec_of_not_ready {s : State} (h : ∀ r, ¬ s.Ready r) (i : Instr) : exec i s = .refused s.refusal := by
  rw [exec_eq_whenReady, State.refusal]
  cases hv : s.config.valid with
  | false => exact whenReady_invalid hv _
  | true => exact whenReady_before_reset hv (Option.eq_none_iff_forall_ne_some.mpr fun r hr => h r ⟨hv, hr⟩) _

theorem execAll_cons_of_ready {s : State} {r : Regs} (h : s.Ready r) (i : Instr) (l : List Instr) :
    execAll (i :: l) s = execAll l (effect i s r) := by
  rw [execAll, exec_of_ready h]

theorem execAll_cons_of_not_ready {s : State} (h : ∀ r, ¬ s.Ready r) (i : Instr) (l : List Instr) :
    execAll (i :: l) s = .refused s.refusal := by
  rw [execAll, exec_of_not_ready h]

theorem execAll_singleton (i : Instr) (s : State) : execAll [i] s = exec i s := by
  cases h : exec i s <;> simp only [execAll, h]

theorem effect_with_inputs (i : Instr) (s : State) (r : Regs) (ins : List Input) :
    effect i { s with inputs := ins } r = { effect i s r with inputs := ins } := by
  cases i <;> simp only [effect, State.writePhase, State.writeDuty, State.countTick]

/-- The steps that present a list of commands run that list, from any state. -/
theorem run_eq_execAll {s : State} (l : List Instr) {rest : List Input}
    (hin : s.inputs = l.map Instr.toInput ++ rest) :
    Host.Core.run Sys2Proof.core l.length s = execAll l { s with inputs := rest } := by
  induction l generalizing s with
  | nil =>
    rw [← (show s.inputs = rest from hin)]
    rfl
  | cons i l ih =>
    have hstep : step s = exec i s.takeInput := by
      rw [step_of_cons hin, decodeCmd_encode, takeInput_of_cons hin]
    obtain ⟨r, hr⟩ | hnot := exists_or_forall_not s.Ready
    case inl =>
      rw [exec_of_ready (takeInput_ready.mpr hr)] at hstep
      have htail : (effect i s.takeInput r).inputs = l.map Instr.toInput ++ rest := by simp [hin]
      have hexec : execAll (i :: l) { s with inputs := rest } =
          execAll l { effect i s.takeInput r with inputs := rest } :=
        (execAll_cons_of_ready (s := { s with inputs := rest }) hr i l).trans
          (congrArg (execAll l) (effect_with_inputs i s.takeInput r rest))
      exact ((run_of_step_next hstep _).trans (ih htail)).trans hexec.symm
    case inr =>
      rw [exec_of_not_ready (s := s.takeInput) hnot] at hstep
      exact (run_of_step_refused hstep _).trans
        (execAll_cons_of_not_ready (s := { s with inputs := rest }) hnot i l).symm

/-! ### Evaluations at one phase -/

/-- The registers after one duty write per channel of a list, at the phase they hold. -/
def Regs.evaluateAll (cfg : Config) (cs : List Channel) (r : Regs) : Regs :=
  cs.foldl (fun q c => q.writeDuty c (evaluate cfg q.phase (offset c))) r

/-- The registers a tick leaves: every channel evaluated at the phase. -/
def Regs.allEvaluated (cfg : Config) (p : Phase) : Regs :=
  ⟨p, ⟨some (evaluate cfg p (offset .ch0)), some (evaluate cfg p (offset .ch1)),
    some (evaluate cfg p (offset .ch2))⟩, ⟨true, true, true⟩⟩

section
variable (cfg : Config)

theorem evaluateAll_cons (c : Channel) (cs : List Channel) (r : Regs) :
    Regs.evaluateAll cfg (c :: cs) r =
      Regs.evaluateAll cfg cs (r.writeDuty c (evaluate cfg r.phase (offset c))) := rfl

theorem evaluateAll_append (cs ds : List Channel) (r : Regs) :
    Regs.evaluateAll cfg (cs ++ ds) r = Regs.evaluateAll cfg ds (Regs.evaluateAll cfg cs r) :=
  List.foldl_append

@[simp] theorem evaluateAll_phase (cs : List Channel) (r : Regs) :
    (Regs.evaluateAll cfg cs r).phase = r.phase := by
  induction cs generalizing r with
  | nil => rfl
  | cons c cs ih => rw [evaluateAll_cons, ih, regs_writeDuty_phase]

/-- A channel of the list holds its value at the phase, and is valid; any other is as before. -/
theorem evaluateAll_get (cs : List Channel) (r : Regs) (d : Channel) :
    (Regs.evaluateAll cfg cs r).duty.get d =
        (if d ∈ cs then some (evaluate cfg r.phase (offset d)) else r.duty.get d) ∧
      (Regs.evaluateAll cfg cs r).valid.get d = if d ∈ cs then true else r.valid.get d := by
  induction cs generalizing r with
  | nil => exact ⟨rfl, rfl⟩
  | cons c cs ih =>
    obtain ⟨duty, valid⟩ := ih (r.writeDuty c (evaluate cfg r.phase (offset c)))
    rw [evaluateAll_cons, duty, valid]
    by_cases h : d = c
    · simp [h]
    · simp [h, PerChannel.get_set_ne]

theorem allEvaluated_duty (p : Phase) (c : Channel) :
    (Regs.allEvaluated cfg p).duty.get c = some (evaluate cfg p (offset c)) := by
  cases c <;> rfl

theorem allEvaluated_valid (p : Phase) (c : Channel) : (Regs.allEvaluated cfg p).valid.get c = true := by
  cases c <;> rfl

/-- Once every channel has been evaluated, in whatever order and however often, nothing is left of the registers
before but the phase. -/
theorem evaluateAll_of_forall_mem {cs : List Channel} (h : ∀ c, c ∈ cs) (r : Regs) :
    Regs.evaluateAll cfg cs r = Regs.allEvaluated cfg r.phase := by
  have phase : (Regs.evaluateAll cfg cs r).phase = r.phase := evaluateAll_phase cfg cs r
  have duty : (Regs.evaluateAll cfg cs r).duty = (Regs.allEvaluated cfg r.phase).duty :=
    PerChannel.ext_get fun c => by rw [(evaluateAll_get cfg cs r c).1, if_pos (h c), allEvaluated_duty]
  have valid : (Regs.evaluateAll cfg cs r).valid = (Regs.allEvaluated cfg r.phase).valid :=
    PerChannel.ext_get fun c => by rw [(evaluateAll_get cfg cs r c).2, if_pos (h c), allEvaluated_valid]
  generalize Regs.evaluateAll cfg cs r = q at phase duty valid
  cases q
  cases phase
  cases duty
  cases valid
  rfl

end

theorem regsAfter_eq_evaluateAll (i : Instr) (s : State) (r : Regs) :
    regsAfter i s r = Regs.evaluateAll s.config (channelsOf i) { r with phase := phaseAfter i s r } := rfl

theorem effect_ready_regsAfter {s : State} {r : Regs} (h : s.Ready r) (i : Instr) :
    (effect i s r).Ready (regsAfter i s r) :=
  ⟨by rw [effect_config]; exact h.1, effect_regs h.2 i⟩

/-- Commands that do not advance evaluate their channels at the phase they find. -/
theorem execAll_of_no_advance {s : State} {r : Regs} (h : s.Ready r) {l : List Instr}
    (hl : ∀ i ∈ l, advancesPhase i = false) :
    execAll l s = .next { s with
      regs := some (Regs.evaluateAll s.config (l.flatMap channelsOf) r)
      events := s.events ++ eventsAt s.config r.phase l } := by
  induction l generalizing s r with
  | nil => simp [execAll, Regs.evaluateAll, ← h.2]
  | cons i l ih =>
    obtain ⟨hi, hl⟩ := List.forall_mem_cons.mp hl
    have hphase : phaseAfter i s r = r.phase := by rw [phaseAfter, hi, if_neg Bool.false_ne_true]
    rw [execAll_cons_of_ready h, ih (effect_ready_regsAfter h i) hl]
    simp [effect_events, effect_tickCount, regsAfter_eq_evaluateAll, hi, hphase, evaluateAll_append, eventsAt_cons]

/-! ### A tick -/

/-- The state a tick leaves: every channel evaluated at the phase, the events of the tick's commands there, one more
advancing step. -/
def State.ticked (s : State) (p : Phase) (l : List Instr) : State :=
  { s with
    regs := some (Regs.allEvaluated s.config p)
    events := s.events ++ eventsAt s.config p l
    tickCount := s.tickCount + 1 }

/-- A command that advances the phase, then others that do not, with every channel evaluated by one of them. -/
structure OneTick (i : Instr) (body : List Instr) : Prop where
  advances : advancesPhase i = true
  stays : ∀ j ∈ body, advancesPhase j = false
  covers : ∀ c, c ∈ (i :: body).flatMap channelsOf

/-- Such a list leaves the same registers whichever commands make it up (R101). -/
theorem execAll_oneTick {s : State} {r : Regs} {i : Instr} {body : List Instr} (h : s.Ready r)
    (ht : OneTick i body) :
    execAll (i :: body) s = .next (s.ticked (advance s.config.delta r.phase) (i :: body)) := by
  have hphase : phaseAfter i s r = advance s.config.delta r.phase := by rw [phaseAfter, if_pos ht.advances]
  have hregs : Regs.evaluateAll s.config (body.flatMap channelsOf) (regsAfter i s r) =
      Regs.allEvaluated s.config (phaseAfter i s r) := by
    rw [regsAfter_eq_evaluateAll, ← evaluateAll_append]
    exact evaluateAll_of_forall_mem s.config ht.covers _
  rw [execAll_cons_of_ready h, execAll_of_no_advance (effect_ready_regsAfter h i) ht.stays]
  simp [State.ticked, effect_events, effect_tickCount, hregs, hphase, ht.advances, eventsAt_cons]

/-- TICK, alone or with NOPs after it. -/
theorem oneTick_of_nops {l : List Instr} (hl : ∀ j ∈ l, j = .nop) : OneTick .tick l where
  advances := rfl
  stays j hj := by rw [hl j hj]; rfl
  covers c := List.mem_append_left _ (by cases c <;> decide)

@[simp] theorem channelsOf_evlOf (c : Channel) : channelsOf (evlOf c) = [c] := by
  cases c <;> rfl

@[simp] theorem advancesPhase_evlOf (c : Channel) : advancesPhase (evlOf c) = false := by
  cases c <;> rfl

theorem tickBody_iff (l : List Instr) :
    tickBody l = true ↔ (∀ j ∈ l, j = .nop ∨ ∃ c, j = evlOf c) ∧ ∀ c, evlOf c ∈ l := by
  have command (j : Instr) : j ∈ [Instr.evl0, .evl1, .evl2, .nop] ↔ j = .nop ∨ ∃ c, j = evlOf c := by
    constructor
    case mp =>
      intro hj
      fin_cases hj
      · exact .inr ⟨.ch0, rfl⟩
      · exact .inr ⟨.ch1, rfl⟩
      · exact .inr ⟨.ch2, rfl⟩
      · exact .inl rfl
    case mpr =>
      rintro (rfl | ⟨c, rfl⟩)
      · decide
      · cases c <;> decide
  have channels : (∀ c, evlOf c ∈ l) ↔ Instr.evl0 ∈ l ∧ Instr.evl1 ∈ l ∧ Instr.evl2 ∈ l :=
    ⟨fun h => ⟨h .ch0, h .ch1, h .ch2⟩, fun ⟨h0, h1, h2⟩ c => by cases c <;> assumption⟩
  simp only [tickBody, Bool.and_eq_true, List.all_eq_true, decide_eq_true_eq, command, channels, and_assoc]

/-- ADV, then evaluations and NOPs with each channel evaluated at least once. -/
theorem oneTick_of_tickBody {l : List Instr} (h : tickBody l = true) : OneTick .adv l := by
  obtain ⟨hall, hevl⟩ := (tickBody_iff l).mp h
  refine ⟨rfl, fun j hj => ?stays, fun c => ?covers⟩
  case stays =>
    obtain rfl | ⟨c, rfl⟩ := hall j hj
    · rfl
    · exact advancesPhase_evlOf c
  case covers => exact List.mem_flatMap.mpr ⟨evlOf c, .tail _ (hevl c), by simp⟩

theorem exec_tick {s : State} {r : Regs} (h : s.Ready r) :
    exec .tick s = .next (s.ticked (advance s.config.delta r.phase) [.tick]) := by
  rw [← execAll_singleton]
  exact execAll_oneTick h (oneTick_of_nops (by simp))

/-- A well-formed tick begins with a NOP in front of another one, or is a tick from its first command on (R102). -/
theorem wellFormedTick_cons {i : Instr} {l : List Instr} (h : wellFormedTick (i :: l) = true) :
    (i = .nop ∧ wellFormedTick l = true) ∨ OneTick i l := by
  cases i with
  | nop => exact .inl ⟨rfl, h⟩
  | tick => exact .inr (oneTick_of_nops (by simpa using List.all_eq_true.mp h))
  | adv => exact .inr (oneTick_of_tickBody h)
  | rsv3 | evl0 | evl1 | evl2 | rsv7 => exact absurd h Bool.false_ne_true

theorem execAll_wellFormedTick {s : State} {r : Regs} {l : List Instr} (h : s.Ready r)
    (hl : wellFormedTick l = true) :
    execAll l s = .next (s.ticked (advance s.config.delta r.phase) l) := by
  induction l with
  | nil => exact absurd hl Bool.false_ne_true
  | cons i l ih =>
    obtain ⟨rfl, hl⟩ | ht := wellFormedTick_cons hl
    · exact (execAll_cons_of_ready h .nop l).trans (ih hl)
    · exact execAll_oneTick h ht

theorem countP_wellFormedTick {l : List Instr} (hl : wellFormedTick l = true) : l.countP advancesPhase = 1 := by
  induction l with
  | nil => exact absurd hl Bool.false_ne_true
  | cons i l ih =>
    obtain ⟨rfl, hl⟩ | ⟨hi, hbody, _⟩ := wellFormedTick_cons hl
    · exact ih hl
    · rw [List.countP_cons_of_pos hi, List.countP_eq_zero.mpr fun j hj => by simp [hbody j hj]]

/-- A run of well-formed ticks advances once per tick. -/
theorem countP_flatten_wellFormed {ticks : List (List Instr)} (h : ∀ l ∈ ticks, wellFormedTick l = true) :
    ticks.flatten.countP advancesPhase = ticks.length := by
  rw [List.countP_flatten, List.map_congr_left fun l hl => countP_wellFormedTick (h l hl)]
  simp

/-- TICK and its four commands answer the same from every state: in one that is not ready the first of them is refused
for the reason for which TICK is (R101). -/
theorem execAll_fourCommands (s : State) : execAll [.adv, .evl0, .evl1, .evl2] s = exec .tick s := by
  obtain ⟨r, hr⟩ | hnot := exists_or_forall_not s.Ready
  case inl =>
    rw [exec_tick hr]
    exact execAll_oneTick hr (oneTick_of_tickBody rfl)
  case inr => rw [execAll_cons_of_not_ready hnot, exec_of_not_ready hnot]

/-! ### Channels -/

theorem channelNumber_lt (c : Channel) : channelNumber c < 3 := by
  cases c <;> decide

theorem channelNumber_inj {c d : Channel} : channelNumber c = channelNumber d ↔ c = d := by
  cases c <;> cases d <;> decide

/-- Three channels that differ are all of them. -/
theorem mem_of_distinct {a b c : Channel} (hab : a ≠ b) (hbc : b ≠ c) (hac : a ≠ c) (d : Channel) :
    d ∈ [a, b, c] := by
  have ha := channelNumber_lt a
  have hb := channelNumber_lt b
  have hc := channelNumber_lt c
  have hd := channelNumber_lt d
  simp only [ne_eq, ← channelNumber_inj, List.mem_cons, List.not_mem_nil, or_false] at hab hbc hac ⊢
  omega

theorem tickBody_of_distinct {a b c : Channel} (hab : a ≠ b) (hbc : b ≠ c) (hac : a ≠ c) :
    tickBody [evlOf a, evlOf b, evlOf c] = true := by
  rw [tickBody_iff]
  refine ⟨fun j hj => ?_, fun d => List.mem_map_of_mem (f := evlOf) (mem_of_distinct hab hbc hac d)⟩
  obtain ⟨d, _, rfl⟩ := List.mem_map.mp (show j ∈ [a, b, c].map evlOf from hj)
  exact .inr ⟨d, rfl⟩

theorem eventsAt_map_evlOf (cfg : Config) (p : Phase) (cs : List Channel) :
    eventsAt cfg p (cs.map evlOf) = cs.map fun c => ⟨c, evaluate cfg p (offset c)⟩ := by
  induction cs with
  | nil => rfl
  | cons c cs ih => rw [List.map_cons, eventsAt_cons, channelsOf_evlOf, ih]; rfl

/-! ### Runs -/

/-- Whatever is presented, a step from a ready state completes in one. -/
theorem step_completes {s : State} {r : Regs} (h : s.Ready r) : ∃ t q, step s = .next t ∧ t.Ready q := by
  cases hrst : s.presented.rst with
  | true => exact ⟨_, _, step_of_reset h.1 hrst, h.1, rfl⟩
  | false => exact ⟨_, _, step_of_ready h hrst, effect_ready_regsAfter (takeInput_ready.mpr h) _⟩

theorem step_keeps_config {s t : State} (h : step s = .next t) : t.config = s.config := by
  obtain ⟨_, _, rfl⟩ | ⟨_, r, _, rfl⟩ := step_cases h
  case inl => rfl
  case inr => rw [effect_config, takeInput_config]

end Sys2Proof.Machine
end

section
/-! SUPPORT. The obligations of the family of 43_tick.md: TICK and its parts, the first evaluations after a reset, and
well-formed ticks and runs of them. -/

namespace Sys2Proof.Machine

/-- Settles O32: TICK is a tick by itself, and its values are the integer ones under a valid configuration. -/
theorem tickEffect : Obligations.TickEffect :=
  ⟨decodeCmd_encode .tick, fun _ _ h => ⟨_, _, _, _, advance_toNat _ _, evaluate_toNat h.1 _ (offset .ch0),
    evaluate_toNat h.1 _ (offset .ch1), evaluate_toNat h.1 _ (offset .ch2), exec_tick h⟩⟩

/-- Settles O33: the steps of a list of commands run that list, and the two lists answer the same. -/
theorem tickIsFourCommands : Obligations.TickIsFourCommands := by
  refine ⟨execAll_fourCommands, fun s rest => ?_⟩
  have four := run_eq_execAll (s := { s with inputs := _ }) [.adv, .evl0, .evl1, .evl2] (rest := rest) rfl
  have one := run_eq_execAll (s := { s with inputs := _ }) [.tick] (rest := rest) rfl
  rw [execAll_singleton] at one
  rw [execAll_fourCommands] at four
  exact four.trans one.symm

/-- Settles O34: three channels that differ are all three, so the evaluations make up a tick in any order. -/
theorem evaluationOrderFree : Obligations.EvaluationOrderFree := by
  intro s r a b c h hab hbc hac
  have hevents : eventsAt s.config (advance s.config.delta r.phase) [.adv, evlOf a, evlOf b, evlOf c] = _ :=
    eventsAt_map_evlOf s.config (advance s.config.delta r.phase) [a, b, c]
  refine ⟨_, _, exec_tick h, rfl, ?_⟩
  rw [execAll_oneTick h (oneTick_of_tickBody (tickBody_of_distinct hab hbc hac)), State.ticked, hevents]
  rfl

/-- Settles O36: the reset phase is 0, which a TICK advances to DELTA and an EVL leaves; the default table's entries at
the three offsets give the three values. -/
theorem firstEvaluation : Obligations.FirstEvaluation := by
  intro s h
  refine ⟨?tick, fun c => ?evl⟩
  case tick =>
    have hphase : advance s.config.delta Regs.reset.phase = s.config.delta := BitVec.zero_add _
    have htick := exec_tick h
    rw [hphase] at htick
    exact ⟨_, htick, rfl, allEvaluated_duty s.config s.config.delta⟩
  case evl =>
    have hregs := (writeDuty_ready h c (evaluate s.config 0#16 (offset c))).2
    have hduty (d : Channel) : (s.writeDuty c (evaluate s.config 0#16 (offset c))).dutyPort d =
        (Regs.reset.duty.set c (some (evaluate s.config 0#16 (offset c)))).get d := dutyPort_of_regs hregs d
    have hown := (hduty c).trans (PerChannel.get_set_self _ c _)
    refine ⟨_, exec_evlOf h c, phasePort_of_regs hregs, hown, fun d hd => ?other,
      fun htable : s.config.table = Config.worked.table => hown.trans ?default⟩
    case other => exact ((hduty d).trans (PerChannel.get_set_ne _ _ hd)).trans (regs_reset_duty d)
    case default => cases c <;> exact congrArg some ((evaluate_eq_of_tableIndex htable rfl).trans (by decide))

/-- Settles O38: every step from a ready state completes in a ready state. -/
theorem noRunEnds : Obligations.NoRunEnds := by
  intro k
  induction k with
  | zero => exact fun s r h => ⟨s, r, rfl, h⟩
  | succ k ih =>
    intro s r h
    obtain ⟨u, q, hstep, hready⟩ := step_completes h
    obtain ⟨t, r', hrun, ht⟩ := ih u q hready
    exact ⟨t, r', (run_of_step_next hstep k).trans hrun, ht⟩

/-- Settles O55: the steps run the tick's commands, which leave the state of a tick. -/
theorem wellFormedTickEffect : Obligations.WellFormedTickEffect := by
  intro s r l rest h hl hin
  have hexec := execAll_wellFormedTick (s := { s with inputs := rest }) h hl
  exact ⟨advance s.config.delta r.phase, advance_toNat _ _, (run_eq_execAll l hin).trans hexec⟩

/-- Settles O56: the run before the last tick leaves the closed form at one advance per tick, and the last tick advances
once more. -/
theorem wellFormedRunEffect : Obligations.WellFormedRunEffect := by
  intro s w ticks last rest hvalid hticks hlast hin
  obtain ⟨u, q, hrun, hq, hphase, hinputs⟩ := phaseAfterRun s w ticks.flatten _ hvalid hin
  have hconfig : u.config = s.config :=
    run_keeps (P := fun t => t.config = s.config) (fun _ _ hs h => (step_keeps_config h).trans hs) rfl hrun
  have hready : u.Ready q := ⟨hconfig ▸ hvalid, hq⟩
  obtain ⟨p, hp, hlastRun⟩ := wellFormedTickEffect u q last rest hready hlast hinputs
  rw [hconfig, hphase, countP_flatten_wellFormed hticks, Nat.mod_add_mod, ← Nat.succ_mul] at hp
  exact ⟨u, _, Regs.allEvaluated u.config p, hrun, hlastRun, rfl, hp,
    fun c => ⟨hconfig ▸ allEvaluated_duty u.config p c, allEvaluated_valid u.config p c⟩, hconfig ▸ rfl⟩

/-- Settles O13: n advances from 0 sum to 197 n, which 332 keep below 65536 and 333 take to 65536 + 65. -/
theorem firstWrap : Obligations.FirstWrap := by
  refine ⟨fun n hn => ?_, advance_iterate_toNat _ _ _⟩
  have closed := advance_iterate_toNat 197#16 0#16 n
  simp only [BitVec.toNat_ofNat] at closed
  omega

end Sys2Proof.Machine
end

section
/-! SUPPORT. The obligation of the family of 60_exceptions.md: nothing faults, and every command completes (R110). -/

namespace Sys2Proof.Machine

/-- Settles O37: there is no fault to answer, as its type is empty (R110); from a ready state a command answers its
effect, which is ready with the registers the command leaves. -/
theorem everyCommandCompletes : Obligations.EveryCommandCompletes := by
  refine ⟨?noFault, ?completes⟩
  case noFault => exact fun _ f => nomatch f
  case completes => exact fun _ _ i h => ⟨_, _, exec_of_ready h i, effect_ready_regsAfter h i⟩

end Sys2Proof.Machine
end

section
/-! SUPPORT. The family of 70_reset_and_hazards.md (R130 to R139): reset steps, alone and held, the time before the first
of them, and commands outside a well-formed tick; then the obligations on them. -/

namespace Sys2Proof.Machine

/-! ### Reset steps -/

/-- The state a reset step leaves where `rest` is still to be presented (R130). -/
def State.afterReset (s : State) (rest : List Input) : State :=
  { s with regs := some Regs.reset, inputs := rest, tickCount := 0 }

theorem step_of_reset_cons {s : State} {w : CmdWord} {rest : List Input} (hv : s.config.valid = true)
    (hin : s.inputs = ⟨true, w⟩ :: rest) : step s = .next (s.afterReset rest) := by
  rw [step_of_reset hv (by rw [presented_of_cons hin]), takeInput_of_cons hin]
  rfl

theorem run_one (s : State) : Host.Core.run Sys2Proof.core 1 s = step s := by
  cases h : step s with
  | next t => exact run_of_step_next h 0
  | fault f => exact nomatch f
  | refused q => exact run_of_step_refused h 0

/-- A run goes on from what its first `m` steps leave. -/
theorem run_add_of_next {m : Nat} {s t : State} (h : Host.Core.run Sys2Proof.core m s = .next t) (k : Nat) :
    Host.Core.run Sys2Proof.core (m + k) s = Host.Core.run Sys2Proof.core k t := by
  induction m generalizing s with
  | zero => cases h; rw [Nat.zero_add]
  | succ m ih =>
    obtain ⟨u, hstep, hrun⟩ := run_succ_next h
    rw [Nat.add_right_comm, run_of_step_next hstep, ih hrun]

/-- Each further reset step leaves again what the first one left. -/
theorem run_resets {s : State} (hv : s.config.valid = true) (w : CmdWord) (ws : List CmdWord) {rest : List Input}
    (hin : s.inputs = (w :: ws).map (Input.mk true) ++ rest) :
    Host.Core.run Sys2Proof.core (ws.length + 1) s = .next (s.afterReset rest) := by
  induction ws generalizing s w with
  | nil => exact (run_one s).trans (step_of_reset_cons hv hin)
  | cons w' ws ih =>
    exact (run_of_step_next (step_of_reset_cons hv hin) _).trans
      (ih (s := s.afterReset ((w' :: ws).map (Input.mk true) ++ rest)) hv w' rfl)

/-! ### Before the first reset step -/

theorem presented_rst_eq (s : State) : s.presented.rst = beginsWithReset s.inputs := by
  rw [State.presented]
  cases s.inputs <;> rfl

section
variable {s : State} (hv : s.config.valid = true) (hr : s.regs = none)
include hv hr

theorem exec_before_reset (i : Instr) : exec i s = .refused .beforeFirstReset := by
  rw [exec_eq_whenReady]
  exact whenReady_before_reset hv hr _

theorem step_before_reset (hrst : s.presented.rst = false) : step s = .refused .beforeFirstReset := by
  rw [step, hrst]
  exact exec_before_reset (s := s.takeInput) hv hr _

end

/-! ### Commands outside a well-formed tick -/

theorem regsAfter_adv (s : State) (r : Regs) :
    regsAfter .adv s r = { r with phase := advance s.config.delta r.phase } := rfl

theorem regsAfter_evlOf (c : Channel) (s : State) (r : Regs) :
    regsAfter (evlOf c) s r = r.writeDuty c (evaluate s.config r.phase (offset c)) := by
  cases c <;> rfl

/-- The registers a list of commands leaves, in the configuration of `s`. -/
def regsAfterAll (s : State) (l : List Instr) (r : Regs) : Regs :=
  l.foldl (fun q i => regsAfter i s q) r

theorem regsAfterAll_congr {s s' : State} (h : s'.config = s.config) (l : List Instr) (r : Regs) :
    regsAfterAll s' l r = regsAfterAll s l r := by
  rw [regsAfterAll, regsAfterAll]
  simp only [regsAfter_congr h]

/-- From a ready state any list of commands completes, well-formed tick or not. -/
theorem execAll_of_ready {s : State} {r : Regs} (h : s.Ready r) (l : List Instr) :
    ∃ t, execAll l s = .next t ∧ t.regs = some (regsAfterAll s l r) := by
  induction l generalizing s r with
  | nil => exact ⟨s, rfl, h.2⟩
  | cons i l ih =>
    rw [execAll_cons_of_ready h]
    obtain ⟨t, hexec, hregs⟩ := ih (effect_ready_regsAfter h i)
    rw [regsAfterAll_congr (effect_config i s r)] at hregs
    exact ⟨t, hexec, hregs⟩

/-- ADVs alone move the phase, once each, and nothing else but the ghost count. -/
theorem execAll_replicate_adv {s : State} {r : Regs} (h : s.Ready r) (n : Nat) :
    execAll (List.replicate n .adv) s = .next { s with
      regs := some { r with phase := (advance s.config.delta)^[n] r.phase }
      tickCount := s.tickCount + n } := by
  induction n generalizing s r with
  | zero => simp [execAll, ← h.2]
  | succ n ih =>
    rw [List.replicate_succ, execAll_cons_of_ready h, ih (effect_ready_regsAfter h .adv)]
    simp [effect_events, effect_tickCount, channelsOf, advancesPhase, regsAfter_adv, Nat.add_assoc, Nat.add_comm 1 n]

/-! ### The obligations -/

/-- Settles O23: a reset step takes its input and leaves the reset registers. -/
theorem resetStep : Obligations.ResetStep :=
  fun _ _ _ hv hin => step_of_reset_cons hv hin

/-- Settles O24: the reset steps leave what one leaves, and the step after them runs the command it presents. -/
theorem resetHeld : Obligations.ResetHeld := by
  intro s w ws rest hv
  refine ⟨fun hin => run_resets hv w ws hin, fun v hin => ?_⟩
  have hcommand : step (s.afterReset (⟨false, v⟩ :: rest)) = exec (decodeCmd v) (s.afterReset rest) :=
    step_of_cons rfl
  exact ((run_add_of_next (run_resets hv w ws hin) 1).trans (run_one _)).trans hcommand

/-- Settles O25: a run's first step is refused or resets, and from a ready state no run ends. -/
theorem beforeFirstReset : Obligations.BeforeFirstReset := by
  refine ⟨fun _ _ => rfl, fun s hv hr => ⟨exec_before_reset hv hr, step_before_reset hv hr⟩, fun cfg ins k hv => ?_⟩
  have hrst : (State.powerOn cfg ins).presented.rst = beginsWithReset ins := presented_rst_eq _
  refine ⟨fun hins => ?refused, fun hins => ?completes⟩
  case refused => exact run_of_step_refused (step_before_reset hv rfl (hrst.trans hins)) k
  case completes =>
    rw [run_of_step_next (step_of_reset hv (hrst.trans hins))]
    exact noRunEnds k _ Regs.reset ⟨hv, rfl⟩

/-- Settles O39: a reset step and a command both keep the configuration. -/
theorem configurationKept : Obligations.ConfigurationKept :=
  fun _ _ h => step_keeps_config h

/-- Settles O59: two ADVs advance twice; an EVL uses the phase the commands before it have left, and writes its own
channel only. -/
theorem protocolViolations : Obligations.ProtocolViolations := by
  intro s r c d h hcd
  refine ⟨⟨_, advance_iterate_toNat s.config.delta r.phase 2, execAll_replicate_adv h 2⟩, ?between, ?after⟩
  case between =>
    obtain ⟨t, hexec, hregs⟩ := execAll_of_ready h [evlOf c, .adv, evlOf d]
    refine ⟨t, _, hexec, hregs, ?_⟩
    simp [regsAfterAll, regsAfter_adv, regsAfter_evlOf, advance, PerChannel.get_set_ne, hcd]
  case after =>
    obtain ⟨t, hexec, hregs⟩ := execAll_of_ready h [.adv, evlOf c]
    refine ⟨t, _, hexec, hregs, ?_⟩
    simp [regsAfterAll, regsAfter_adv, regsAfter_evlOf, advance, PerChannel.get_set_ne, hcd.symm]

end Sys2Proof.Machine
end
